-- ==== Sys2Proof/Word.lean ====
section
/-! DEFINITION. The word types of the part (00_scope.md, "Addresses, words and cycles" and "Units"). -/

namespace Sys2Proof

/-- An 8-bit character of a field link, or one byte lane of a word. -/
abbrev Byte := BitVec 8

/-- A 16-bit memory word at an even address. -/
abbrev Word := BitVec 16

/-- A 32-bit quantity: two consecutive words, or the millisecond count. -/
abbrev Long := BitVec 32

/-- A 20-bit byte address. -/
abbrev Addr := BitVec 20

/-- A line number, 0 to 7. -/
abbrev LineNo := Fin 8

/-- A stage number, 0 to 63. -/
abbrev StageNo := Fin 64

end Sys2Proof
end

