-- ==== Sys2Proof/Syntax.lean ====
section
/-! DEFINITION. The commands of the part: one constructor of `Instr` for each row of spec/opcode_table.json. -/

namespace Sys2Proof

/-- The byte lanes a host write enables (00_scope.md: a partial write enables one lane only). -/
inductive Lanes where
  | low
  | high
  | both
  deriving DecidableEq, Repr

/-- The six alert classes, in priority order (chapter 9, section 9.1). -/
inductive AlertClass where
  | trip
  | communication
  | stageEnd
  | link
  | refusal
  | ring
  deriving DecidableEq, Repr

/-- The causes of an asserted PLANT STOP (chapter 9, section 9.3). -/
inductive PlantCause where
  | reset
  | stopAll
  | ackTimeout
  deriving DecidableEq, Repr

/-- A block that posts through the insert queue (chapter 2, section 2.2). -/
inductive Block where
  | passThrough
  | line (n : LineNo)
  | link (n : LineNo)
  | alert
  | config
  | report
  deriving DecidableEq, Repr

/-- The commands. Each docstring gives the row of the table and the rule. `n` is a line, `arg` the argument byte
of a command word. -/
inductive Instr where
  /-- RESET (R175). `order` is the order in which the blocks make their start-up posts, which the spec leaves open;
  a block it does not name posts after those it names (log 7). -/
  | reset (order : List Block)
  /-- HOST_READ (R17). -/
  | hostRead (addr : Addr)
  /-- HOST_READ_GRANT (R18). -/
  | hostReadGrant
  /-- HOST_WRITE (R5, R6, R13). -/
  | hostWrite (addr : Addr) (value : Word) (lanes : Lanes)
  /-- HOST_WRITE_GRANT (R7, R8). -/
  | hostWriteGrant
  /-- INSERT_QUEUE_DRAIN (R27). -/
  | insertQueueDrain
  /-- TABLE_READER_GRANT (R31): presented with the port free, the grant and the reading of its word; presented again, the
  read's return, so that another event may come between the two (R33, log 5). -/
  | tableReaderGrant
  /-- GUARD_NO_COMMAND (R156): a full write of code 00h to status word 0. -/
  | guardNoCommand (arg : Byte)
  /-- ACKNOWLEDGE (R157). -/
  | acknowledge (arg : Byte)
  /-- STOP_ALL (R159). -/
  | stopAll (arg : Byte)
  /-- RELEASE_STOP (R161). -/
  | releaseStop (arg : Byte)
  /-- GUARD_UNKNOWN_COMMAND (R156): codes 05h to FFh. -/
  | guardUnknownCommand (code arg : Byte)
  /-- LOAD_CONFIG (R169). -/
  | loadConfig (arg : Byte)
  /-- CONSUMER (R12): a full write to status word 5. -/
  | consumer (value : Word)
  /-- LINE_NO_COMMAND (R61): a full write of code 00h to line word 0. -/
  | lineNoCommand (n : LineNo) (arg : Byte)
  /-- BIND (R62, R63). -/
  | bind (n : LineNo) (arg : Byte)
  /-- START (R64). -/
  | start (n : LineNo) (arg : Byte)
  /-- HOLD (R65). -/
  | hold (n : LineNo) (arg : Byte)
  /-- RESUME (R66). -/
  | resume (n : LineNo) (arg : Byte)
  /-- END (R67). -/
  | endStage (n : LineNo) (arg : Byte)
  /-- RELEASE (R68). -/
  | release (n : LineNo) (arg : Byte)
  /-- RESYNC (R69). -/
  | resync (n : LineNo) (arg : Byte)
  /-- REARM_FLAGS (R70). -/
  | rearmFlags (n : LineNo) (arg : Byte)
  /-- LINE_UNKNOWN_COMMAND (R61): codes 09h to FFh. -/
  | lineUnknownCommand (n : LineNo) (code arg : Byte)
  /-- FLOW_TARGET (R77, R78): a full write to line word 1. -/
  | flowTarget (n : LineNo) (value : Word)
  /-- CEILING_REQUEST (R82, R83): a full write to line word 2. -/
  | ceilingRequest (n : LineNo) (value : Word)
  /-- MIX_REQUEST (R88 to R90): a full write to line word 3. -/
  | mixRequest (n : LineNo) (value : Word)
  /-- BIND_COPY_COMPLETE (R72): the oldest job-complete event sent to line n. -/
  | bindCopyComplete (n : LineNo)
  /-- SAMPLE (R94). -/
  | sample (n : LineNo)
  /-- RAMP_EXPIRY (R79). -/
  | rampExpiry (n : LineNo)
  /-- DWELL_EXPIRY (R105). -/
  | dwellExpiry (n : LineNo)
  /-- SETTLE_EXPIRY (R123). -/
  | settleExpiry (n : LineNo)
  /-- LINK_STATE_CHANGE (R117). -/
  | linkStateChange (n : LineNo)
  /-- UNANSWERED_COMMAND (R118). -/
  | unansweredCommand (n : LineNo)
  /-- REFUSED_LOCAL (R121). -/
  | refusedLocal (n : LineNo)
  /-- PLANT_STOP_EVENT (R119): a plant stop event of this cause sent to line n. -/
  | plantStopEvent (n : LineNo) (cause : PlantCause)
  /-- HOLD_DEMAND (R128): the oldest demand sent to line n. -/
  | holdDemand (n : LineNo)
  /-- RISE_OBSERVED (R126): the oldest observation of line n, a rise. -/
  | riseObserved (n : LineNo)
  /-- RETURN_OBSERVED (R126): the oldest observation of line n, a return. -/
  | returnObserved (n : LineNo)
  /-- CLOCK_MISSING (R133). -/
  | clockMissing (n : LineNo)
  /-- FRAMING_ERROR (R135): a character taken in BETWEEN. -/
  | framingError (n : LineNo) (char : Byte)
  /-- SAMPLE_FRAME (R136): the next character of a SAMPLE frame; the 13th completes it. -/
  | sampleFrame (n : LineNo) (char : Byte)
  /-- SAMPLE_JUDGED_AT_LINK (R146, R149). -/
  | sampleJudgedAtLink (n : LineNo)
  /-- ANSWER (R142). -/
  | answer (n : LineNo)
  /-- FRAME_REQUEST (R139). -/
  | frameRequest (n : LineNo)
  /-- STOP_REQUEST (R141). -/
  | stopRequest (n : LineNo)
  /-- RECEIVER_RESTART (R138). -/
  | receiverRestart (n : LineNo)
  /-- REARM (R150). -/
  | rearm (n : LineNo)
  /-- FRAME_SENT (R140). -/
  | frameSent (n : LineNo)
  /-- ANSWER_TIMEOUT (R143). -/
  | answerTimeout (n : LineNo)
  /-- REFRESH_TIMER_EXPIRY (R144). -/
  | refreshTimerExpiry (n : LineNo)
  /-- SAMPLE_TIMEOUT (R146). -/
  | sampleTimeout (n : LineNo)
  /-- ALERT_RAISE (R154): a raise of this class sent to the Alert Controller. -/
  | alertRaise (cls : AlertClass)
  /-- ACK_TIMEOUT (R160). -/
  | ackTimeout
  /-- LOAD_NOTICE (R158, R155). -/
  | loadNotice
  /-- REPORT (R163): the oldest report handed to the Report Writer. -/
  | report
  /-- RING_RECORD_WRITE (R164). -/
  | ringRecordWrite
  /-- RING_PLACEMENT (R166). -/
  | ringPlacement
  /-- LOAD_JOB_COMPLETE (R171 to R174). -/
  | loadJobComplete
  /-- UPLINK_CLOCK_EDGE (R133). -/
  | uplinkClockEdge (n : LineNo)
  /-- SYNC_FOUND (R134): one bit taken in HUNTING; the one that completes the sync code finds it. -/
  | syncFound (n : LineNo) (bit : Bool)
  /-- SYNC1_CHARACTER (R134). -/
  | sync1Character (n : LineNo) (char : Byte)
  /-- FRAME_START (R135): a character taken in BETWEEN. -/
  | frameStart (n : LineNo) (char : Byte)
  /-- ANSWER_FRAME (R136): the next character of an ANSWER frame; the 6th completes it. -/
  | answerFrame (n : LineNo) (char : Byte)
  deriving DecidableEq, Repr

end Sys2Proof
end

