-- ==== Sys2Proof/Config.lean ====
section
/-! DEFINITION. The fixed sizes of the part, and the free values: values the spec leaves open. A free value has no
body, so nothing can be proved of it but what holds for every value. -/

namespace Sys2Proof.Config

/-- R24: the insert queue holds at most 16 entries. -/
def queueCapacity : Nat := 16

/-- R23: drain mode turns on when an accepted post brings the entries to this number. -/
def drainOnAt : Nat := 12

/-- R23: drain mode turns off when a drain brings the entries to this number. -/
def drainOffAt : Nat := 4

/-- R21: the run of host grants after which another requester is granted. -/
def hostRunLimit : Nat := 8

/-- R137: the receive FIFO holds at most three samples. -/
def fifoCapacity : Nat := 3

/-- R163: the Report Writer's pending list holds at most 8 records. -/
def pendingReports : Nat := 8

/-- R100: the sample window keeps at most 8 pairs. -/
def windowSize : Nat := 8

/-- R79: the period of the ramp timer, ms. -/
def rampPeriod : Nat := 1000

/-- R133: the duration of the clock watch timer, ms. -/
def clockWatchPeriod : Nat := 1

/-- FREE VALUE (log 10): the stage byte of a report made by a Field Link Controller, which the spec does not state.
The argument numbers the report, so that each report has its own. -/
opaque freeLinkReportStage : Nat → Byte

/-- FREE VALUE (log 11): the mix code of a MIX frame built while no stage copy is in force, which the spec does not
state. The argument numbers the frame. -/
opaque freeMixCode : Nat → Byte

end Sys2Proof.Config
end

