-- ==== Sys2Proof/Machine/State.lean ====
section
/-! DEFINITION. The state of the part, all of it plain data, and its value after reset. -/

namespace Sys2Proof.Machine

/-! ### Outcomes -/

/-- The part has no fault that stops it (INVENTORY.md, "Faults"): no meaning answers a fault. -/
inductive Fault where
  deriving DecidableEq, Repr

/-- Why a step is refused. -/
inductive Refusal where
  /-- A command that has no meaning yet, by its mnemonic in the table. Raised by an arm of `exec` alone; safe.
  No arm raises it: every command has its meaning. -/
  | notModelled (mnemonic : String)
  deriving DecidableEq, Repr

/-! ### Timers -/

/-- A timer of the part (00_scope.md, "Time"): stopped, or running with the milliseconds left. Running with 0 left is
an expiry not yet taken (R51). -/
inductive Timer where
  | stopped
  | running (ms : Nat)
  deriving DecidableEq, Repr

/-! ### Reports -/

/-- The report kinds (chapter 11, section 11.5). -/
inductive ReportKind where
  | writeRefused
  | bindDone
  | bindFailed
  | stageEnded
  | mixStepped
  | meterJump
  | trip
  | holdImposed
  | communication
  | linkLost
  | linkRestored
  | linkError
  | flags
  | plantStop
  | configLoaded
  | configRejected
  deriving DecidableEq, Repr

/-- A report record before it is laid out in words (chapter 11, section 11.5). -/
structure Report where
  kind : ReportKind
  detail : BitVec 7 := 0
  line : Byte := 0xFF
  stage : Byte := 0xFF
  time : Long
  valueA : Long := 0
  valueB : Long := 0
  lostBefore : Bool := false
  deriving DecidableEq, Repr

/-! ### The memory path -/

/-- One part write: a word address and its data (R24). -/
structure Post where
  addr : Addr
  data : Word
  deriving DecidableEq, Repr

/-- The reasons of a refused write (R14); NONE is the absence of one. -/
inductive RefuseReason where
  | partOwned
  | ringArea
  | recordBound
  | consumerRange
  | partialWrite
  | lineState
  | mixOrder
  deriving DecidableEq, Repr

/-- A host write as the control computer presents it: the word address, both lanes as driven, the lanes enabled. -/
structure HostWrite where
  addr : Addr
  value : Word
  lanes : Lanes
  deriving DecidableEq, Repr

/-- The host cycle the Pass-Through Unit holds (R1). Bus ready is inactive in every state but `idle`. -/
inductive HostCycle where
  /-- No cycle is held. -/
  | idle
  /-- A read that has asked for the port (R18). -/
  | read (addr : Addr)
  /-- A watched write whose owner is busy; the port is not asked for (R1). -/
  | held (w : HostWrite)
  /-- A watched write its owner has taken and is working on (R9, R10, R11). -/
  | taken (w : HostWrite)
  /-- A setpoint write answered as refused, its record not yet posted (R11). -/
  | answered (w : HostWrite) (value : Word) (reason : RefuseReason) (stage : Byte)
  /-- A write answered as refused while the record's words are posted: it asks for the port after them (R11, R14). -/
  | answering (w : HostWrite)
  /-- A write refused outright while the record's words are posted: the cycle ends with them (R14). -/
  | refusing (w : HostWrite)
  /-- A write that has asked for the port, with the value the RAM is to receive. -/
  | write (w : HostWrite)
  deriving DecidableEq, Repr

/-- The last-refusal record (R14). -/
structure RefusalRecord where
  reason : Option RefuseReason
  addr : Addr
  deriving DecidableEq, Repr

/-- The extent of a report ring (R3): `size` records of 16 bytes from `base`. -/
structure Ring where
  base : Nat
  size : Nat
  deriving DecidableEq, Repr

/-- The requesters of the RAM port (R20). -/
inductive Requester where
  | host
  | queue
  | reader
  deriving DecidableEq, Repr

/-- The port grant between two steps (R20): free, or held by the table reader while a read of it is under way (R33), with
the word the RAM held at the grant (R31) and whether the job has been withdrawn meanwhile. Every other grant begins and
ends within one step (log 5). -/
inductive PortGrant where
  | free
  | reading (word : Word) (withdrawn : Bool)
  deriving DecidableEq, Repr

/-- A job of the table reader (R30) with the words it has read. -/
inductive Job where
  | bindCopy (n : LineNo) (stage : StageNo) (tag : Byte) (read : Nat)
  | load (read : Nat)
  deriving DecidableEq, Repr

/-! ### Field links -/

/-- The link states (R146). -/
inductive LinkState where
  | off
  | hunting
  | up
  | lost
  deriving DecidableEq, Repr

/-- The state of the clock watch (R133). -/
inductive ClockWatch where
  | stopped
  | present
  | missing
  deriving DecidableEq, Repr

/-- The receiver states (8.3). -/
inductive Receiver where
  | idle
  | hunting
  | sync1
  | between
  | frame
  deriving DecidableEq, Repr

/-- A valid SAMPLE frame with its arrival time (R94, R137). -/
structure Sample where
  seq : Byte
  pressure : Word
  flow : Word
  meter : Word
  uplift : Word
  flags : Byte
  arrival : Long
  deriving DecidableEq, Repr

/-- The requests a supervisor makes that wait in PENDING (R139). -/
inductive RequestKind where
  | setpoint
  | mix
  deriving DecidableEq, Repr

/-- The command frames (R131). -/
inductive CommandKind where
  | setpoint
  | mix
  | stop
  deriving DecidableEq, Repr

/-- The downlink frames (R131). -/
inductive FrameKind where
  | command (k : CommandKind)
  | refresh
  deriving DecidableEq, Repr

/-- The command in the IN FLIGHT slot; not awaiting is SENDING (8.5). -/
structure Command where
  kind : CommandKind
  seq : Byte
  awaiting : Bool
  deriving DecidableEq, Repr

/-- The downlink wire (8.5, R145): a frame on it with its characters, from the first sync character to the CRC. -/
inductive Wire where
  | quiet
  | fill
  | sending (kind : FrameKind) (chars : List Byte)
  deriving DecidableEq, Repr

/-- The events that wait at a Field Link Controller (R152). -/
inductive LinkInput where
  /-- A valid SAMPLE to be judged at the link state and the flag latch. -/
  | judge (x : Sample)
  /-- A valid ANSWER to be handed to the transmitter: echoed sequence and outcome. -/
  | answer (echo outcome : Byte)
  | request (k : RequestKind)
  | stop
  | restart
  | rearm
  | answerExpiry
  | refreshExpiry
  | sampleExpiry
  /-- The taking of the next frame for the wire. -/
  | takeNext
  /-- A successful load has replaced the image (R174). -/
  | notice
  deriving DecidableEq, Repr

/-- An event at a Field Link Controller not yet taken. `waited` marks those that waited behind a post of the
controller: they are taken in the order in which they arose (R152). -/
structure LinkArrival where
  input : LinkInput
  waited : Bool := false
  deriving DecidableEq, Repr

/-- Field Link Controller n (chapter 8, the table of its state). -/
structure Link where
  state : LinkState := .off
  watch : ClockWatch := .stopped
  watchTimer : Timer := .stopped
  /-- An expiry of the watch timer not yet taken, with its time (R133). -/
  watchExpiry : Option Long := none
  receiver : Receiver := .idle
  /-- The bits taken since the search started, oldest first, the last eight at most (R134). -/
  huntBits : List Bool := []
  /-- The frame in assembly, from its kind byte on (R136). -/
  assembly : List Byte := []
  fifo : List Sample := []
  /-- Overrun: clear, or set with its count (R137). -/
  overrun : Option Byte := none
  wire : Wire := .quiet
  /-- The link rate code in use on the downlink (R131, R151). -/
  wireRate : Word := 0
  inFlight : Option Command := none
  pending : List RequestKind := []
  stopWaiting : Bool := false
  refreshOwed : Bool := false
  downlinkSeq : Byte := 0
  unanswered : Byte := 0
  answerTimer : Timer := .stopped
  refreshTimer : Timer := .stopped
  sampleTimer : Timer := .stopped
  flagsSeen : BitVec 4 := 0
  latchOpen : Bool := true
  latchedFlags : BitVec 4 := 0
  /-- Arrival time and sequence of the last valid SAMPLE judged (R146, R150). -/
  lastArrival : Long := 0
  lastSeq : Byte := 0
  /-- The millisecond count at which the link went LOST (R146). -/
  lostAt : Long := 0
  arrivals : List LinkArrival := []
  deriving DecidableEq, Repr

/-! ### Line supervision -/

/-- The line states, in code order (4.2). -/
inductive LineState where
  | vacant
  | binding
  | bound
  | injecting
  | closing
  | holding
  | ended
  | tripped
  deriving DecidableEq, Repr

/-- The hold reasons (R50). -/
inductive HoldReason where
  | host
  | communication
  | surfaceLeak
  | localStop
  | packerLeak
  deriving DecidableEq, Repr

/-- The end reasons (R50). -/
inductive EndReason where
  | refusal
  | volumeCap
  | intensity
  | hostEnd
  deriving DecidableEq, Repr

/-- The trip causes (R50). -/
inductive TripCause where
  | overpressure
  | pressureBreak
  | uplift
  | driveFault
  | linkLost
  | commandLost
  | ackTimeout
  | stopAll
  deriving DecidableEq, Repr

/-- The leave reasons (R50). -/
inductive LeaveReason where
  | clear
  | recordCheck
  | recordField
  deriving DecidableEq, Repr

/-- What a line sends to the Communication Monitor, and what the monitor's demand carries (R124 to R126). -/
structure Observation where
  line : LineNo
  stage : StageNo
  /-- false for a rise, true for a return. -/
  isReturn : Bool
  pressure : Word
  baseline : Word
  deriving DecidableEq, Repr

/-- What Field Link Controller n tells its supervisor, in the order sent (R117). -/
inductive LinkEvent where
  | stateChange (to_ : LinkState)
  | unanswered (count : Byte)
  | refusedLocal (echo : Byte)
  deriving DecidableEq, Repr

/-- The words of a stage record copy being filled (R35). -/
structure Filling where
  words : Vector Word 38 := Vector.replicate 38 0
  check : Word := 0
  deriving DecidableEq, Repr

/-- Events sent to a supervisor and not yet taken (R51), each list oldest first. -/
structure LineMail where
  linkEvents : List LinkEvent := []
  demands : List Observation := []
  plantStops : List PlantCause := []
  /-- The copy tags of the job-complete events sent (R72). -/
  jobDone : List Byte := []
  deriving DecidableEq, Repr

/-- The line context of Line Supervisor n (R50). The values given are those after RESET. -/
structure Line where
  state : LineState := .vacant
  stage : Option StageNo := none
  copyTag : Byte := 0
  /-- The stage copy in force: words 0 to 37 (R42). -/
  copy : Option (Vector Word 38) := none
  /-- The copy being filled, present while the line is BINDING (R35). -/
  filling : Option Filling := none
  flowTarget : Word := 0
  admitted : Word := 0
  ceilingRequest : Word := 0
  intensityCeiling : Word := 0
  effectiveCeiling : Word := 0
  lastSentCeiling : Word := 0
  volume : Long := 0
  meterBaseline : Option Word := none
  take : Word := 0
  mixIndex : Word := 0
  takeAtStep : Word := 0
  /-- The sample window: (pressure, flow), oldest first (R100). -/
  window : List (Word × Word) := []
  baseline : Option Word := none
  riseFlag : Bool := false
  dwell : Timer := .stopped
  ramp : Timer := .stopped
  settle : Timer := .stopped
  holdReason : Option HoldReason := none
  endReason : Option EndReason := none
  tripCause : Option TripCause := none
  leaveReason : LeaveReason := .clear
  lastSampleSeq : Option Byte := none
  /-- GROUT_RETURN, LOCAL_STOP, DRIVE_FAULT, PACKER_LEAK in bits 0 to 3 (11.6). -/
  flags : BitVec 4 := 0
  linkCopy : LinkState := .off
  mail : LineMail := {}
  deriving DecidableEq, Repr

/-- The phases of a Binding Table entry (3.4). -/
inductive Phase where
  | binding
  | bound
  deriving DecidableEq, Repr

/-- An entry of the Stage Binding Table that holds a line (3.4). -/
structure Binding where
  line : LineNo
  phase : Phase
  deriving DecidableEq, Repr

/-! ### Operations in flight -/

/-- One act of a block's operation. A post may wait on a full insert queue; every other act is done at once. -/
inductive Act where
  | post (p : Post)
  /-- Hand a report to the Report Writer (R163). -/
  | hand (r : Report)
  /-- A request of supervisor n to its Field Link Controller. -/
  | request (n : LineNo) (k : RequestKind)
  /-- Supervisor n requests a SETPOINT where its effective ceiling now differs from the last sent (R82). -/
  | requestCeiling (n : LineNo)
  /-- Supervisor n restarts its ramp timer or leaves it stopped (R79, step 4). -/
  | restartRamp (n : LineNo)
  | stop (n : LineNo)
  | restart (n : LineNo)
  | rearm (n : LineNo)
  /-- Send an observation to the Communication Monitor (R124, R125). -/
  | observe (o : Observation)
  /-- Send a plant stop event to every supervisor (R119). -/
  | plantStop (cause : PlantCause)
  /-- Field Link Controller n tells its supervisor (R117). -/
  | tell (n : LineNo) (e : LinkEvent)
  /-- The supervisor's answer to a setpoint write (R76). -/
  | answer (value : Word) (reason : Option RefuseReason) (stage : Byte)
  /-- The owner has done with a watched write, which asks for the port (R9, R10). -/
  | ask
  /-- The record's words are posted: a write answered as refused asks for the port, a write refused outright ends
  (R14). -/
  | recordPosted
  /-- Tell the Alert Controller of a successful load (R158). -/
  | loadNotice
  /-- Tell the Report Writer that the load has ended, and whether a ring placement follows (R166). -/
  | loadEnded (placement : Bool)
  /-- Tell the Field Link Controllers that a new image is in force (R174). -/
  | notifyLinks
  /-- The STOP enters the slot of link n and its wire (R141). -/
  | enterStop (n : LineNo)
  /-- The writer moves its producer index (R164). -/
  | setProducer (value : Nat)
  /-- The record in flight is written (R164, R165). -/
  | recordWritten
  /-- The posts of a ring placement have been accepted (R166). -/
  | placed
  deriving DecidableEq, Repr

/-- What an operation goes on to when its acts are done. -/
inductive Cont where
  /-- Steps 4 and 5 of the sample operation (R94). -/
  | sampleChecks (n : LineNo) (x : Sample)
  /-- The taking of the next frame for the wire of link n. -/
  | takeNext (n : LineNo)
  /-- The taking of the head of PENDING of link n after an answer or an expiry (R142, R143). -/
  | takePending (n : LineNo)
  deriving DecidableEq, Repr

/-- A waiting post (R26), with what is left of its block's operation in flight. A block has an operation in flight
exactly while it has a waiting post. -/
structure WaitingPost where
  block : Block
  post : Post
  rest : List Act := []
  cont : Option Cont := none
  deriving DecidableEq, Repr

/-! ### Alert Controller, Report Writer, Configuration Unit -/

/-- A raise of a class, sent to the Alert Controller (R154), and whether it is that of a line's TRIP report (R161,
log 39). -/
structure Raise where
  cls : AlertClass
  ofTrip : Bool := false
  deriving DecidableEq, Repr

/-- The Alert Controller (chapter 9). The values given are those after RESET. -/
structure AlertUnit where
  /-- The pending set, one flag per class in the bits of status word 2 (11.2). -/
  pending : BitVec 6 := 0
  /-- The ALERT output. -/
  alert : Bool := false
  ackTimer : Timer := .stopped
  /-- The plant stop state and PLANT STOP output: asserted with a cause, or released. -/
  plantStop : Option PlantCause := some .reset
  /-- The millisecond count at the last assertion. -/
  assertedAt : Long := 0
  /-- Raises sent and not yet taken (R156). -/
  raises : List Raise := []
  /-- Load notices sent and not yet taken (R156). -/
  loadNotices : Nat := 0
  deriving DecidableEq, Repr

/-- The Report Writer (chapter 9). The values given are those after RESET. -/
structure ReportUnit where
  pending : List Report := []
  inFlight : Option Report := none
  producer : Nat := 0
  consumer : Nat := 0
  lost : Bool := false
  ring : Option Ring := none
  /-- A load is in flight: the writer takes no record (R166). -/
  paused : Bool := false
  /-- A ring placement is pending (R166). -/
  placement : Bool := false
  /-- Reports handed over and not yet taken, oldest first. -/
  handed : List Report := []
  deriving DecidableEq, Repr

/-- The load state (chapter 10, 11.2). -/
inductive LoadState where
  | unloaded
  | loading
  | loaded
  | rejected (word step : Nat)
  deriving DecidableEq, Repr

/-- The Configuration Unit (chapter 10). The values given are those after RESET. -/
structure ConfigUnit where
  image : Option (Vector Word 12) := none
  load : LoadState := .unloaded
  /-- The load image, held while a load is in flight. -/
  loadImage : Option (Vector Word 12) := none
  /-- Job-complete events of the load sent and not yet taken (R32). -/
  jobDone : Nat := 0
  deriving DecidableEq, Repr

/-! ### The state -/

/-- The state of the part. -/
structure State where
  /-- The commands that are waiting, first in, first out. The model's own. -/
  pending : List Instr := []
  /-- The RAM: the bytes that are not 00h, addresses rising (log 3). -/
  mem : List Host.Cell := []
  /-- The millisecond count (00_scope.md, "Time"). -/
  clock : Long := 0
  /-- The number of free values used so far. The model's own (log 30). -/
  freeCount : Nat := 0
  -- Pass-Through Unit
  cycle : HostCycle := .idle
  hostData : Word := 0
  refusal : RefusalRecord := ⟨none, 0⟩
  oldRing : Option Ring := none
  -- Memory Port Controller
  port : PortGrant := .free
  queue : List Post := []
  waiting : List WaitingPost := []
  drain : Bool := false
  runCount : Nat := 0
  jobs : List Job := []
  -- Stage Binding Table
  binding : Vector (Option Binding) 64 := Vector.replicate 64 none
  -- Line Supervisors, Field Link Controllers, Communication Monitor
  lines : Vector Line 8 := Vector.replicate 8 {}
  links : Vector Link 8 := Vector.replicate 8 {}
  observations : List Observation := []
  -- Alert Controller, Report Writer, Configuration Unit
  alert : AlertUnit := {}
  report : ReportUnit := {}
  config : ConfigUnit := {}
  deriving DecidableEq, Repr

/-- Every block at its reset value (R19, R34, R49, R75, R130, R153, R167, R175), before the start-up posts. -/
def State.cleared : State := {}

/-- The state word of a VACANT line (R58): stage FFh, rise flag clear. -/
def State.startUpLines : List Post :=
  [⟨0xFF888, 0xFF00⟩, ⟨0xFF908, 0xFF00⟩, ⟨0xFF988, 0xFF00⟩, ⟨0xFFA08, 0xFF00⟩,
   ⟨0xFFA88, 0xFF00⟩, ⟨0xFFB08, 0xFF00⟩, ⟨0xFFB88, 0xFF00⟩, ⟨0xFFC08, 0xFF00⟩]

/-- The link state word of a link that is OFF with count 0 (R148). -/
def State.startUpLinks : List Post :=
  [⟨0xFF8A8, 0⟩, ⟨0xFF928, 0⟩, ⟨0xFF9A8, 0⟩, ⟨0xFFA28, 0⟩,
   ⟨0xFFAA8, 0⟩, ⟨0xFFB28, 0⟩, ⟨0xFFBA8, 0⟩, ⟨0xFFC28, 0⟩]

/-- The machine right after reset: every block at its reset value, and the 21 start-up posts of R175 made in the
order lines, links, Alert Controller, Configuration Unit, Report Writer. The order, and that the posts are all made before
the first drain, are the model's choice (log 7): R34 leaves open how full the queue grows. So sixteen of them fill the
insert queue, which turns drain mode on; the three remaining blocks wait, the Alert Controller with two more posts to
make. -/
def State.reset : State :=
  { State.cleared with
    queue := State.startUpLines ++ State.startUpLinks
    drain := true
    waiting :=
      [{ block := .alert, post := ⟨0xFF842, 0⟩, rest := [.post ⟨0xFF844, 0⟩, .post ⟨0xFF846, 0x9000⟩] },
       { block := .config, post := ⟨0xFF848, 0⟩ },
       { block := .report, post := ⟨0xFF852, 0⟩ }] }

end Sys2Proof.Machine
end

