-- ==== Sys2Proof/Machine/Operands.lean ====
section
/-! DEFINITION. Addresses and their classes (chapter 1), and the readings of the loaded image and of a stage copy. -/

namespace Sys2Proof.Machine

/-! ### Addresses (11.2, 11.3) -/

/-- The word address of a bus address: bit 0 is not part of it (log 26). -/
def wordAddr (a : Addr) : Addr := a &&& 0xFFFFE

/-- Status word k (11.2). -/
def statusAddr (k : Nat) : Addr := BitVec.ofNat 20 (0xFF840 + 2 * k)

/-- Configuration word k (11.1). -/
def configAddr (k : Nat) : Addr := BitVec.ofNat 20 (0xFF800 + 2 * k)

/-- Word w of line n's image block (11.3). -/
def lineAddr (n : LineNo) (w : Nat) : Addr := BitVec.ofNat 20 (0xFF880 + 0x80 * n.val + 2 * w)

/-- The class of an address for a host write (R2). `below` is every address below the guard block, classified at the
port grant (R1). -/
inductive WordClass where
  | below
  | plain
  | partOwned
  | guardCommand
  | consumer
  | control (n : LineNo)
  /-- FLOW TARGET 1, CEILING REQUEST 2, MIX REQUEST 3. -/
  | setpoint (n : LineNo) (word : Nat)
  deriving DecidableEq, Repr

/-- The class of status word k (R2). -/
def statusClass (k : Nat) : WordClass :=
  if k = 0 then .guardCommand
  else if k = 5 then .consumer
  else if k ≤ 9 then .partOwned
  else .plain

/-- The class of word w of line n's image block (R2). -/
def lineClass (n : LineNo) (w : Nat) : WordClass :=
  if w = 0 then .control n
  else if w ≤ 3 then .setpoint n w
  else if w ≤ 22 then .partOwned
  else .plain

/-- The class of an address (R2). -/
def classify (a : Addr) : WordClass :=
  let x := a.toNat
  if x < 0xFF800 then .below
  else if x < 0xFF840 then .plain
  else if x < 0xFF880 then statusClass ((x - 0xFF840) / 2)
  else if x < 0xFFC80 then lineClass (Fin.ofNat 8 ((x - 0xFF880) / 0x80)) ((x - 0xFF880) % 0x80 / 2)
  else .plain

/-- The line byte of a WRITE_REFUSED report (R15): the line whose image block holds the address, or FFh. -/
def addrLine (a : Addr) : Byte :=
  let x := a.toNat
  if 0xFF880 ≤ x ∧ x < 0xFFC80 then BitVec.ofNat 8 ((x - 0xFF880) / 0x80) else 0xFF

/-! ### The loaded image (R168) -/

/-- Word k of the loaded image, 0 while no image is loaded. -/
def ConfigUnit.word (c : ConfigUnit) (k : Fin 12) : Word :=
  match c.image with
  | some i => i[k]
  | none => 0

/-- Line n is enabled in the loaded image (11.1: word 0, bit n); before the first load every line is disabled. -/
def ConfigUnit.enabled (c : ConfigUnit) (n : LineNo) : Bool := (c.word 0).getLsbD n.val

/-- The sync code: the low byte of word 2 (R131). -/
def ConfigUnit.syncCode (c : ConfigUnit) : Byte := (c.word 2).setWidth 8

/-- The base of the stage table an image places, or none (R3). -/
def tableOf (i : Vector Word 12) : Option Nat :=
  if i[8] = 0xFFFF then none else some (i[8].toNat * 2048)

/-- The ring an image places (R3). -/
def ringOf (i : Vector Word 12) : Ring := ⟨i[9].toNat * 16, i[10].toNat⟩

/-- The base of the stage table in the area map (R3). -/
def State.tableBase (s : State) : Option Nat := s.config.image.bind tableOf

/-- An address lies in the extent of a ring (R3). -/
def Ring.contains (r : Ring) (a : Nat) : Bool := r.base ≤ a && a < r.base + 16 * r.size

/-- The Ring class (R3, R7): the ring of the loaded image, or an old ring extent that has not left the area map. -/
def State.ringClass (s : State) (a : Addr) : Bool :=
  (match s.config.image with
    | some i => (ringOf i).contains a.toNat
    | none => false) ||
  (match s.oldRing with
    | some r => r.contains a.toNat
    | none => false)

/-- The stage whose record holds the address, where the stage table does (R4). -/
def State.stageOf (s : State) (a : Addr) : Option StageNo :=
  match s.tableBase with
  | none => none
  | some base =>
    if base ≤ a.toNat ∧ a.toNat < base + 6144 then some (Fin.ofNat 64 ((a.toNat - base) / 96)) else none

/-- The word within its record of an address in the stage table (R4). -/
def recordWord (base : Nat) (a : Addr) : Nat := (a.toNat - base) % 96 / 2

/-- The address of word w of stage s's record (R30). -/
def recordAddr (base : Nat) (stage : StageNo) (w : Nat) : Addr := BitVec.ofNat 20 (base + 96 * stage.val + 2 * w)

/-! ### The stage copy (R36 to R38, R42) -/

/-- Word k of the stage copy in force, 0 where none is. -/
def Line.stageWord (l : Line) (k : Fin 38) : Word :=
  match l.copy with
  | some words => words[k]
  | none => 0

/-- Pmax, kPa. -/
def Line.pmax (l : Line) : Word := l.stageWord 3

/-- Pmax plus the overpressure margin, formed without wrap (R113). -/
def Line.overLimit (l : Line) : Nat := (l.stageWord 3).toNat + (l.stageWord 4).toNat

/-- Refusal pressure, kPa. -/
def Line.refusalPressure (l : Line) : Word := l.stageWord 5

/-- Refusal flow, 0.1 L/min. -/
def Line.refusalFlow (l : Line) : Word := l.stageWord 6

/-- Closing dwell, s. -/
def Line.closingDwell (l : Line) : Word := l.stageWord 7

/-- Max flow, 0.1 L/min. -/
def Line.maxFlow (l : Line) : Word := l.stageWord 8

/-- Ramp step, 0.1 L/min per second. -/
def Line.rampStep (l : Line) : Word := l.stageWord 9

/-- Imax, kPa·L/m: the low word at 10 (R36). -/
def Line.imax (l : Line) : Nat := (l.stageWord 10).toNat + 65536 * (l.stageWord 11).toNat

/-- Vmax, L/m. -/
def Line.vmax (l : Line) : Word := l.stageWord 12

/-- Stage length in dm: bottom minus top (R36). -/
def Line.length (l : Line) : Nat := (l.stageWord 2).toNat - (l.stageWord 1).toNat

/-- UPLIFT_CHECK (11.4). -/
def Line.upliftCheck (l : Line) : Bool := (l.stageWord 36).getLsbD 0

/-- COMM_CHECK (11.4). -/
def Line.commCheck (l : Line) : Bool := (l.stageWord 36).getLsbD 1

/-- SURFACE_CHECK (11.4). -/
def Line.surfaceCheck (l : Line) : Bool := (l.stageWord 36).getLsbD 2

/-- Stage s is among the listed neighbours (R37: words 19 to 18 + count). -/
def Line.listsNeighbour (l : Line) (s : StageNo) : Bool :=
  let count := (l.stageWord 18).toNat
  (1 ≤ count && l.stageWord 19 == BitVec.ofNat 16 s.val) ||
  (2 ≤ count && l.stageWord 20 == BitVec.ofNat 16 s.val) ||
  (3 ≤ count && l.stageWord 21 == BitVec.ofNat 16 s.val) ||
  (4 ≤ count && l.stageWord 22 == BitVec.ofNat 16 s.val)

/-- The mix count (R38). -/
def Line.mixCount (l : Line) : Nat := (l.stageWord 23).toNat

/-- The mix code of entry i: the low byte of word 24 + 2i (R38). -/
def Line.mixCode (l : Line) (i : Word) : Byte := (l.stageWord (Fin.ofNat 38 (24 + 2 * i.toNat))).setWidth 8

/-- The step volume of entry i: word 25 + 2i (R38). -/
def Line.stepVolume (l : Line) (i : Word) : Word := l.stageWord (Fin.ofNat 38 (25 + 2 * i.toNat))

/-! ### Words and bytes -/

/-- The two words of a 32-bit quantity, low word first (00_scope.md). -/
def longOf (low high : Word) : Long := high ++ low

/-- Bits 0 to 15. -/
def lowWord (x : Long) : Word := x.setWidth 16

/-- Bits 16 to 31. -/
def highWord (x : Long) : Word := (x >>> 16).setWidth 16

/-- The word with a high and a low byte. -/
def wordOf (high low : Byte) : Word := high ++ low

/-- The high byte of a word. -/
def highByte (w : Word) : Byte := (w >>> 8).setWidth 8

/-- The low byte of a word. -/
def lowByte (w : Word) : Byte := w.setWidth 8

/-- The lesser of two unsigned words. -/
def minWord (a b : Word) : Word := if a ≤ b then a else b

/-- The 16-bit sum modulo 65536 of a list of words (R176). -/
def checkSum (ws : List Word) : Word := ws.foldl (· + ·) 0

/-- A line number as a byte. -/
def lineByte (n : LineNo) : Byte := BitVec.ofNat 8 n.val

/-- A stage number as a byte, FFh for none (00_scope.md). -/
def stageByte : Option StageNo → Byte
  | some s => BitVec.ofNat 8 s.val
  | none => 0xFF

end Sys2Proof.Machine
end

