-- ==== Sys2Proof/Machine/Flags.lean ====
section
/-! DEFINITION. The codes and layouts of the words the part posts (chapter 11). -/

namespace Sys2Proof

/-! ### Codes of the operands -/

/-- 11.2, plant stop causes; NONE is 0. -/
def PlantCause.code : PlantCause → Word
  | .reset => 1
  | .stopAll => 2
  | .ackTimeout => 3

/-- The bit of a class in ALERT PENDING (11.2); its priority is one more. -/
def AlertClass.bit : AlertClass → Nat
  | .trip => 0
  | .communication => 1
  | .stageEnd => 2
  | .link => 3
  | .refusal => 4
  | .ring => 5

/-- R15: the lanes enabled, 1 low, 2 high, 3 both. -/
def Lanes.code : Lanes → Byte
  | .low => 1
  | .high => 2
  | .both => 3

end Sys2Proof

namespace Sys2Proof.Machine

/-! ### Codes (11.2, 11.3, 11.5) -/

/-- 4.2. -/
def LineState.code : LineState → Word
  | .vacant => 0
  | .binding => 1
  | .bound => 2
  | .injecting => 3
  | .closing => 4
  | .holding => 5
  | .ended => 6
  | .tripped => 7

/-- 11.3, word 20. -/
def LinkState.code : LinkState → Word
  | .off => 0
  | .hunting => 1
  | .up => 2
  | .lost => 3

/-- 11.3, line reason codes. -/
def HoldReason.code : HoldReason → Byte
  | .host => 0x10
  | .communication => 0x11
  | .surfaceLeak => 0x12
  | .localStop => 0x13
  | .packerLeak => 0x14

/-- 11.3, line reason codes. -/
def EndReason.code : EndReason → Byte
  | .refusal => 0x20
  | .volumeCap => 0x21
  | .intensity => 0x22
  | .hostEnd => 0x23

/-- 11.3, line reason codes. -/
def TripCause.code : TripCause → Byte
  | .overpressure => 0x30
  | .pressureBreak => 0x31
  | .uplift => 0x32
  | .driveFault => 0x33
  | .linkLost => 0x34
  | .commandLost => 0x35
  | .ackTimeout => 0x36
  | .stopAll => 0x37

/-- 11.3, line reason codes. -/
def LeaveReason.code : LeaveReason → Byte
  | .clear => 0x00
  | .recordCheck => 0x01
  | .recordField => 0x02

/-- 11.2, refusal reasons. -/
def RefuseReason.code : RefuseReason → Word
  | .partOwned => 1
  | .ringArea => 2
  | .recordBound => 3
  | .consumerRange => 4
  | .partialWrite => 5
  | .lineState => 6
  | .mixOrder => 7

/-- 11.5. -/
def ReportKind.code : ReportKind → Byte
  | .writeRefused => 0x01
  | .bindDone => 0x02
  | .bindFailed => 0x03
  | .stageEnded => 0x04
  | .mixStepped => 0x05
  | .meterJump => 0x06
  | .trip => 0x07
  | .holdImposed => 0x08
  | .communication => 0x09
  | .linkLost => 0x0A
  | .linkRestored => 0x0B
  | .linkError => 0x0C
  | .flags => 0x0D
  | .plantStop => 0x0E
  | .configLoaded => 0x0F
  | .configRejected => 0x10

/-- 8.1: the kind codes of the frames. -/
def FrameKind.code : FrameKind → Byte
  | .command .setpoint => 0xA5
  | .command .mix => 0xC3
  | .command .stop => 0x0F
  | .refresh => 0x69

/-- 11.3, word 22: the kind of a command. -/
def CommandKind.code : CommandKind → Word
  | .setpoint => 1
  | .mix => 2
  | .stop => 3

/-- The kind code of an uplink SAMPLE (R131). -/
def sampleKind : Byte := 0x5A

/-- The kind code of an uplink ANSWER (R131). -/
def answerKind : Byte := 0x3C

/-- The outcomes of a line command (11.3). -/
inductive LineOutcome where
  | done
  | inProgress
  | refusedState
  | lineDisabled
  | noTable
  | stageRange
  | stageBusy
  | loading
  | linkNotUp
  | plantStopped
  | localStopSet
  | unknown
  deriving DecidableEq, Repr

/-- 11.3, line outcome codes. -/
def LineOutcome.code : LineOutcome → Byte
  | .done => 1
  | .inProgress => 2
  | .refusedState => 3
  | .lineDisabled => 4
  | .noTable => 5
  | .stageRange => 6
  | .stageBusy => 7
  | .loading => 8
  | .linkNotUp => 9
  | .plantStopped => 10
  | .localStopSet => 11
  | .unknown => 12

/-- The outcomes of a guard command (11.2). -/
inductive GuardOutcome where
  | clear
  | done
  | inProgress
  | nothingPending
  | stopConditions
  | busy
  | rejected
  | unknown
  deriving DecidableEq, Repr

/-- 11.2, guard outcome codes. -/
def GuardOutcome.code : GuardOutcome → Word
  | .clear => 0
  | .done => 1
  | .inProgress => 2
  | .nothingPending => 3
  | .stopConditions => 4
  | .busy => 5
  | .rejected => 6
  | .unknown => 7

/-- The statuses of LAST COMMAND (11.3, word 22). -/
inductive CommandStatus where
  | awaiting
  | applied
  | refusedLocal
  | malformed
  | unanswered
  | superseded
  deriving DecidableEq, Repr

/-- 11.3, word 22. -/
def CommandStatus.code : CommandStatus → Word
  | .awaiting => 1
  | .applied => 2
  | .refusedLocal => 3
  | .malformed => 4
  | .unanswered => 5
  | .superseded => 6

/-! ### Station flags (11.6) -/

/-- GROUT_RETURN. -/
def groutReturn (f : BitVec 4) : Bool := f.getLsbD 0

/-- LOCAL_STOP. -/
def localStop (f : BitVec 4) : Bool := f.getLsbD 1

/-- DRIVE_FAULT. -/
def driveFault (f : BitVec 4) : Bool := f.getLsbD 2

/-- PACKER_LEAK. -/
def packerLeak (f : BitVec 4) : Bool := f.getLsbD 3

/-! ### Words of a line image block (11.3) -/

/-- STATE: bits 0 to 2 the state, bit 7 the rise flag, bits 8 to 15 the stage (R58). -/
def stateWord (l : Line) : Word :=
  wordOf (stageByte l.stage) ((if l.riseFlag then 0x80 else 0) ||| lowByte l.state.code)

/-- REASON: the reason that belongs to the line's state (R59). -/
def reasonWord (l : Line) : Word :=
  match l.state with
  | .vacant => wordOf 0 l.leaveReason.code
  | .binding => 0
  | .bound => 0
  | .injecting => 0
  | .closing => 0
  | .holding => match l.holdReason with
    | some r => wordOf 0 r.code
    | none => 0
  | .ended => match l.endReason with
    | some r => wordOf 0 r.code
    | none => 0
  | .tripped => match l.tripCause with
    | some c => wordOf 0 c.code
    | none => 0

/-- COMMAND OUTCOME: bits 8 to 15 the code taken, bits 0 to 7 the outcome. -/
def outcomeWord (code : Byte) (o : LineOutcome) : Word := wordOf code o.code

/-- LINK STATE: bits 0 to 1 the state, bits 8 to 15 the unanswered count (R148). -/
def linkStateWord (k : Link) : Word := wordOf k.unanswered (lowByte k.state.code)

/-- LATCHED FLAGS: bits 0 to 3 the latched flags, bit 15 latch open (R149). -/
def latchedFlagsWord (k : Link) : Word := (if k.latchOpen then 0x8000 else 0) ||| k.latchedFlags.setWidth 16

/-- LAST COMMAND: bits 0 to 7 the sequence, 8 to 9 the kind, 12 to 14 the status (R148). -/
def lastCommandWord (kind : CommandKind) (seq : Byte) (status : CommandStatus) : Word :=
  (status.code <<< 12) ||| (kind.code <<< 8) ||| seq.setWidth 16

/-! ### Words of the status area (11.2) -/

/-- GUARD OUTCOME: bits 8 to 15 the code, 4 to 7 the class removed as its priority, 0 to 3 the outcome. -/
def guardOutcomeWord (code : Byte) (removed : Nat) (o : GuardOutcome) : Word :=
  (code.setWidth 16 <<< 8) ||| (BitVec.ofNat 16 removed <<< 4) ||| o.code

/-- ALERT PENDING: bits 0 to 5 the classes, bit 15 ALERT (R155). -/
def alertPendingWord (a : AlertUnit) : Word := (if a.alert then 0x8000 else 0) ||| a.pending.setWidth 16

/-- PLANT STOP: bit 15 asserted, bits 12 to 14 the cause, bits 0 to 11 of the count at the last assertion (9.3). -/
def plantStopWord (a : AlertUnit) : Word :=
  (lowWord a.assertedAt &&& 0x0FFF) |||
  (match a.plantStop with
    | some c => 0x8000 ||| (c.code <<< 12)
    | none => 0)

/-- CONFIGURATION STATE: bits 0 to 1 the load state; with REJECTED bits 4 to 7 the word, bits 8 to 10 the step. -/
def loadStateWord : LoadState → Word
  | .unloaded => 0
  | .loading => 1
  | .loaded => 2
  | .rejected w step => 3 ||| (BitVec.ofNat 16 w <<< 4) ||| (BitVec.ofNat 16 step <<< 8)

/-! ### Alert classes -/

/-- The alert class a report raises (9.1, 9.4; R122 and R162 for the two kinds with two classes). -/
def Report.alertClass (r : Report) : AlertClass :=
  match r.kind with
  | .writeRefused => .refusal
  | .bindDone => .stageEnd
  | .bindFailed => .refusal
  | .stageEnded => .stageEnd
  | .mixStepped => .stageEnd
  | .meterJump => .link
  | .trip => .trip
  | .holdImposed =>
    if r.detail.setWidth 8 = HoldReason.communication.code ∨ r.detail.setWidth 8 = HoldReason.surfaceLeak.code
    then .communication else .stageEnd
  | .communication => .communication
  | .linkLost => .link
  | .linkRestored => .link
  | .linkError => .link
  | .flags => .link
  | .plantStop => if lowWord r.valueA = 1 then .trip else .stageEnd
  | .configLoaded => .stageEnd
  | .configRejected => .refusal

/-- ALERT: some pending class is unmaskable or not masked (R155). The mask bits are those of word 7 (11.1). -/
def alertLevel (pending : BitVec 6) (mask : Word) : Bool :=
  pending &&& ~~~((mask &&& 0x003C).setWidth 6) ≠ 0

/-- The alert mask in force: no class is masked while no image is loaded (R155). -/
def ConfigUnit.mask (c : ConfigUnit) : Word := c.word 7

/-- The pending class of highest priority (R157). -/
def highestClass (p : BitVec 6) : Option AlertClass :=
  if p.getLsbD 0 then some .trip
  else if p.getLsbD 1 then some .communication
  else if p.getLsbD 2 then some .stageEnd
  else if p.getLsbD 3 then some .link
  else if p.getLsbD 4 then some .refusal
  else if p.getLsbD 5 then some .ring
  else none

/-! ### Report records (11.5) -/

/-- The eight words of a record. -/
def Report.words (r : Report) : List Word :=
  [ (if r.lostBefore then 0x8000 else 0) ||| (r.detail.setWidth 16 <<< 8) ||| r.kind.code.setWidth 16,
    wordOf r.stage r.line,
    lowWord r.time, highWord r.time,
    lowWord r.valueA, highWord r.valueA,
    lowWord r.valueB, highWord r.valueB ]

end Sys2Proof.Machine
end

