-- ==== Sys2Proof/Machine/Entries.lean ====
section
/-! DEFINITION. The entries of a line into its states (R50 to R57, R102, R103), with the posts, requests and reports
of a move. All of it is on the line context alone. -/

namespace Sys2Proof.Machine

/-- A timer of `k` seconds, started. -/
def Timer.seconds (k : Word) : Timer := .running (1000 * k.toNat)

/-- The timer has expired and the expiry is not yet taken (R51). -/
def Timer.due : Timer → Bool
  | .running 0 => true
  | _ => false

/-- The seconds left on a timer, rounded up (R99). -/
def Timer.secondsLeft : Timer → Word
  | .stopped => 0
  | .running ms => BitVec.ofNat 16 ((ms + 999) / 1000)

/-- INJECTING or CLOSING. -/
def LineState.flowing (st : LineState) : Bool := st == .injecting || st == .closing

/-- BOUND or HOLDING. -/
def LineState.idleBound (st : LineState) : Bool := st == .bound || st == .holding

/-- The post of word w of line n's block. -/
def postLine (n : LineNo) (w : Nat) (v : Word) : Act := .post ⟨lineAddr n w, v⟩

/-! ### Ceilings and flow (R81) -/

/-- The intensity ceiling at a take: Pmax at take 0, otherwise the lesser of Pmax and Imax over the take (R81). -/
def Line.intensityAt (l : Line) (take : Word) : Word :=
  if take = 0 then l.pmax else BitVec.ofNat 16 (min l.pmax.toNat (l.imax / take.toNat))

/-- The effective ceiling: the lesser of the ceiling request and the intensity ceiling (R81). -/
def Line.effectiveAt (request intensity : Word) : Word := minWord request intensity

/-! ### Entries -/

/-- What leaving BOUND or HOLDING does (R53); nothing in any other state. -/
def Line.leaveIdle (l : Line) : Line :=
  if l.state.idleBound then
    { l with settle := .stopped, baseline := none, riseFlag := false, holdReason := none }
  else l

/-- Entry to VACANT with a leave reason (R57, R50): the fields of the station, the link and the supervisor are kept,
and so is what has been sent to the supervisor. -/
def Line.enterVacant (l : Line) (leave : LeaveReason) : Line :=
  { ({} : Line) with
    copyTag := l.copyTag
    lastSampleSeq := l.lastSampleSeq
    flags := l.flags
    linkCopy := l.linkCopy
    mail := l.mail
    leaveReason := leave }

/-- Acceptance of BIND (R63): the copy is emptied and counts as absent. -/
def Line.enterBinding (l : Line) (stage : StageNo) : Line :=
  { l with state := .binding, stage := some stage, copyTag := l.copyTag + 1, copy := none, filling := some {} }

/-- Entry to BOUND with a validated copy in force (R50, R53, R72). -/
def Line.enterBound (l : Line) (words : Vector Word 38) : Line :=
  { l with
    state := .bound
    copy := some words
    filling := none
    flowTarget := 0
    admitted := 0
    ceilingRequest := words[3]
    intensityCeiling := words[3]
    effectiveCeiling := words[3]
    lastSentCeiling := 0
    volume := 0
    meterBaseline := none
    take := 0
    mixIndex := 0
    takeAtStep := 0
    window := []
    baseline := none
    riseFlag := false
    dwell := .stopped
    ramp := .stopped
    settle := .seconds words[37]
    holdReason := none
    endReason := none
    tripCause := none
    leaveReason := .clear }

/-- Entry to INJECTING from BOUND or HOLDING (R54). -/
def Line.enterInjecting (l : Line) : Line :=
  { l.leaveIdle with
    state := .injecting
    admitted := 0
    window := []
    ramp := if l.flowTarget = 0 then .stopped else .running Config.rampPeriod }

/-- Entry to HOLDING (R53, R55). -/
def Line.enterHolding (l : Line) (r : HoldReason) : Line :=
  { l with
    state := .holding
    admitted := 0
    ramp := .stopped
    dwell := .stopped
    holdReason := some r
    settle := .seconds (l.stageWord 37)
    baseline := none
    riseFlag := false }

/-- Entry to ENDED (R56). -/
def Line.enterEnded (l : Line) (r : EndReason) : Line :=
  { l.leaveIdle with
    state := .ended
    endReason := some r
    admitted := 0
    ramp := .stopped
    dwell := .stopped
    settle := .stopped }

/-- Entry to TRIPPED (R57). -/
def Line.enterTripped (l : Line) (c : TripCause) : Line :=
  { l.leaveIdle with
    state := .tripped
    tripCause := some c
    admitted := 0
    ramp := .stopped
    dwell := .stopped
    settle := .stopped
    holdReason := none }

/-- Entry to CLOSING from INJECTING (R102): the dwell starts, all else carries across. -/
def Line.enterClosing (l : Line) : Line :=
  { l with state := .closing, dwell := .seconds l.closingDwell }

/-- Step 4 of a ramp expiry (R79): the ramp timer restarts while the admitted flow is below the target, in INJECTING and
CLOSING, and is stopped otherwise. -/
def Line.restartRamp (l : Line) : Line :=
  { l with ramp := if l.state.flowing ∧ l.admitted < l.flowTarget then .running Config.rampPeriod else .stopped }

/-- Return from CLOSING to INJECTING (R103): the dwell is abandoned and the window emptied. -/
def Line.returnInjecting (l : Line) : Line :=
  { l with state := .injecting, dwell := .stopped, window := [] }

/-! ### What a move posts and hands over

A move gives the line afterwards, the posts of the move in order, and the requests and the report made after the posts
(R60 puts a command's outcome word between the two). -/

/-- The state word and then the reason word (R58, R59). -/
def statePosts (n : LineNo) (l : Line) : List Act := [postLine n 4 (stateWord l), postLine n 6 (reasonWord l)]

/-- The dwell remaining word as 0 where the move takes the line out of CLOSING (R104). -/
def dwellPosts (n : LineNo) (before : LineState) : List Act :=
  if before = .closing then [postLine n 19 0] else []

/-- The STAGE_ENDED report (R56). -/
def stageEndedReport (n : LineNo) (l : Line) (r : EndReason) (now : Long) : Report :=
  { kind := .stageEnded
    line := lineByte n
    stage := stageByte l.stage
    time := now
    valueA := l.volume
    valueB := longOf l.take (wordOf (lowByte l.mixIndex) r.code) }

/-- A line ended by the part (R105, R108, R109): its posts, its STOP and its report. -/
def endMove (n : LineNo) (l : Line) (r : EndReason) (now : Long) : Line × List Act × List Act :=
  let l' := l.enterEnded r
  (l', [postLine n 15 l'.admitted] ++ dwellPosts n l.state ++ statePosts n l',
    [.stop n, .hand (stageEndedReport n l' r now)])

/-- The TRIP report (R116). -/
def tripReport (n : LineNo) (l : Line) (c : TripCause) (time valueA valueB : Long) : Report :=
  { kind := .trip
    detail := c.code.setWidth 7
    line := lineByte n
    stage := stageByte l.stage
    time := time
    valueA := valueA
    valueB := valueB }

/-- A trip (R115): its posts, its STOP and its report. -/
def tripMove (n : LineNo) (l : Line) (c : TripCause) (time valueA valueB : Long) :
    Line × List Act × List Act :=
  let l' := l.enterTripped c
  (l', (if l.state.flowing then [postLine n 15 l'.admitted] else []) ++ dwellPosts n l.state ++ statePosts n l',
    [.stop n, .hand (tripReport n l' c time valueA valueB)])

/-- A trip from the link or the plant (R116): volume, then take and the admitted flow before the trip. -/
def eventTrip (n : LineNo) (l : Line) (c : TripCause) (now : Long) : Line × List Act × List Act :=
  tripMove n l c now l.volume (longOf l.take l.admitted)

/-- A hold imposed by the part (R122, section 7.4): its posts, its SETPOINT and its report. -/
def holdMove (n : LineNo) (l : Line) (r : HoldReason) (time valueA valueB : Long) :
    Line × List Act × List Act :=
  let l' := l.enterHolding r
  (l', [postLine n 15 l'.admitted] ++ dwellPosts n l.state ++ statePosts n l',
    [.request n .setpoint,
     .hand { kind := .holdImposed, detail := r.code.setWidth 7, line := lineByte n, stage := stageByte l.stage,
             time := time, valueA := valueA, valueB := valueB }])

end Sys2Proof.Machine
end

