-- ==== Sys2Proof/Machine/Frames.lean ====
section
/-! DEFINITION. The characters and the CRC of link frames (R131, R132, R177, 11.6). -/

namespace Sys2Proof.Machine

/-- One step of the CRC register (R177). -/
def crcShift (r : Word) : Word := if r.getLsbD 15 then (r <<< 1) ^^^ 0x1021 else r <<< 1

/-- One character into the CRC register (R177). -/
def crcChar (r : Word) (c : Byte) : Word :=
  crcShift (crcShift (crcShift (crcShift (crcShift (crcShift (crcShift (crcShift (r ^^^ (c.setWidth 16 <<< 8)))))))))

/-- The CRC of the characters from KIND to the last payload character (R132, R177). -/
def crc (chars : List Byte) : Word := chars.foldl crcChar 0xFFFF

/-- A frame as it is sent: two sync characters, KIND, SEQ, payload, CRC high byte first (R131, R132). -/
def frameChars (sync : Byte) (kind : FrameKind) (seq : Byte) (payload : List Byte) : List Byte :=
  let body := kind.code :: seq :: payload
  sync :: sync :: (body ++ [highByte (crc body), lowByte (crc body)])

/-- A word as two characters, high byte first (R131). -/
def wordChars (w : Word) : List Byte := [highByte w, lowByte w]

/-- The CRC a received frame carries: its last two characters, high byte first (R132). -/
def receivedCrc (frame : List Byte) : Word :=
  wordOf (frame.getD (frame.length - 2) 0) (frame.getD (frame.length - 1) 0)

/-- The CRC computed over a received frame (R132). -/
def computedCrc (frame : List Byte) : Word := crc (frame.take (frame.length - 2))

/-- The SAMPLE a complete frame carries (11.6; positions counted here from KIND). -/
def sampleOf (frame : List Byte) (arrival : Long) : Sample :=
  { seq := frame.getD 1 0
    pressure := wordOf (frame.getD 2 0) (frame.getD 3 0)
    flow := wordOf (frame.getD 4 0) (frame.getD 5 0)
    meter := wordOf (frame.getD 6 0) (frame.getD 7 0)
    uplift := wordOf (frame.getD 8 0) (frame.getD 9 0)
    flags := frame.getD 10 0
    arrival := arrival }

/-- The bits of a character, most significant first (R131). -/
def charBits (c : Byte) : List Bool :=
  [c.getLsbD 7, c.getLsbD 6, c.getLsbD 5, c.getLsbD 4, c.getLsbD 3, c.getLsbD 2, c.getLsbD 1, c.getLsbD 0]

end Sys2Proof.Machine
end

