-- ==== Sys2Proof/Machine/Memory.lean ====
section
/-! DEFINITION. The RAM (00_scope.md): a list of the bytes that are not 00h in one canonical form, and its word
accesses, with the byte order settled here (log 4). -/

namespace Sys2Proof.Machine

/-- What an unlisted address reads as (log 3). -/
def Memory.blank : Byte := 0

/-- The byte at an address. -/
def Memory.get : List Host.Cell → Nat → Byte
  | [], _ => Memory.blank
  | c :: rest, a => if c.1 = a then c.2 else Memory.get rest a

/-- Put a byte at an address the list does not hold, keeping the addresses rising. -/
def Memory.place : List Host.Cell → Nat → Byte → List Host.Cell
  | [], a, v => [(a, v)]
  | c :: rest, a, v => if a < c.1 then (a, v) :: c :: rest else c :: Memory.place rest a v

/-- Write a byte. Writing what an unlisted address reads as removes the entry. -/
def Memory.set (m : List Host.Cell) (a : Nat) (v : Byte) : List Host.Cell :=
  let others := m.filter (fun c => c.1 != a)
  if v = Memory.blank then others else Memory.place others a v

/-- The canonical form: addresses strictly rising, no entry that equals what an unlisted address reads as. -/
def Memory.wf : List Host.Cell → Bool
  | [] => true
  | [c] => c.2 != Memory.blank
  | c :: d :: rest => c.2 != Memory.blank && c.1 < d.1 && Memory.wf (d :: rest)

/-- The word at a word address: the low lane is the byte at the even address (log 4). -/
def readWord (m : List Host.Cell) (a : Addr) : Word :=
  wordOf (Memory.get m ((wordAddr a).toNat + 1)) (Memory.get m (wordAddr a).toNat)

/-- Write the enabled lanes of a word (R5): a lane that is not enabled keeps its content. -/
def writeLanes (m : List Host.Cell) (a : Addr) (v : Word) (lanes : Lanes) : List Host.Cell :=
  match lanes with
  | .low => Memory.set m (wordAddr a).toNat (lowByte v)
  | .high => Memory.set m ((wordAddr a).toNat + 1) (highByte v)
  | .both => Memory.set (Memory.set m (wordAddr a).toNat (lowByte v)) ((wordAddr a).toNat + 1) (highByte v)

end Sys2Proof.Machine
end

