-- ==== Sys2Proof/Machine/Ops.lean ====
section
/-! DEFINITION. The operations the blocks share: access to the lines and links, the insert queue, the acts of an
operation, and running an operation until it ends or a post of it waits (chapter 2). -/

namespace Sys2Proof.Machine

/-! ### Access -/

/-- The line context of line n. -/
def State.line (s : State) (n : LineNo) : Line := s.lines[n]

/-- Replace the line context of line n. -/
def State.setLine (s : State) (n : LineNo) (l : Line) : State := { s with lines := s.lines.set n l }

/-- Field Link Controller n. -/
def State.link (s : State) (n : LineNo) : Link := s.links[n]

/-- Replace Field Link Controller n. -/
def State.setLink (s : State) (n : LineNo) (k : Link) : State := { s with links := s.links.set n k }

/-- Entry `stage` of the Binding Table (3.4). -/
def State.bindingOf (s : State) (stage : StageNo) : Option Binding := s.binding[stage]

/-- Replace an entry of the Binding Table. -/
def State.setBinding (s : State) (stage : StageNo) (b : Option Binding) : State :=
  { s with binding := s.binding.set stage b }

/-- The first element that passes a test, and the list without it. -/
def extractFirst {α : Type} (p : α → Bool) : List α → Option (α × List α)
  | [] => none
  | x :: rest =>
    if p x then some (x, rest)
    else match extractFirst p rest with
      | some (y, rest') => some (y, x :: rest')
      | none => none

/-! ### The insert queue (R24 to R26) -/

/-- The queue holds an entry for a word address (R29). -/
def queued (q : List Post) (a : Addr) : Bool := q.any (fun p => p.addr == a)

/-- The data queued for a word address (R17, R29). -/
def queuedData (q : List Post) (a : Addr) : Option Word := (q.find? (fun p => p.addr == a)).map Post.data

/-- The queue holds an entry inside a ring extent (R29). -/
def queuedIn (q : List Post) (r : Ring) : Bool := q.any (fun p => r.contains p.addr.toNat)

/-- The queue takes a post at once: its address is queued, or there is room (R25). -/
def State.takesPost (s : State) (p : Post) : Bool := queued s.queue p.addr || s.queue.length < Config.queueCapacity

/-- The queue after a post is accepted (R25): an entry for the same address is removed, and the post stands at the
tail. -/
def joinQueue (q : List Post) (p : Post) : List Post := q.filter (fun e => e.addr != p.addr) ++ [p]

/-- A post whose address is not queued brings the entries to 12 (R23). -/
def fillsToDrain (q : List Post) (p : Post) : Bool := !queued q p.addr && q.length + 1 == Config.drainOnAt

/-- An accepted post (R25), which may turn drain mode on (R23). -/
def State.accept (s : State) (p : Post) : State :=
  { s with queue := joinQueue s.queue p, drain := s.drain || fillsToDrain s.queue p }

/-- The block has an operation in flight: it has a waiting post (R26, R51, R152, R156). -/
def State.busy (s : State) (b : Block) : Bool := s.waiting.any (fun w => w.block == b)

/-! ### Events between blocks -/

/-- An event arises at Field Link Controller n. -/
def State.arrive (s : State) (n : LineNo) (e : LinkInput) : State :=
  let k := s.link n
  s.setLink n { k with arrivals := k.arrivals ++ [⟨e, false⟩] }

/-- A raise of a class is sent to the Alert Controller (R154). -/
def State.raise (s : State) (r : Raise) : State :=
  { s with alert := { s.alert with raises := s.alert.raises ++ [r] } }

/-- A report handed to the Report Writer, in the order handed over (log 9). -/
def State.hand (s : State) (r : Report) : State :=
  { s with report := { s.report with handed := s.report.handed ++ [r] } }

/-- One more free value is used. -/
def State.useFree (s : State) : State := { s with freeCount := s.freeCount + 1 }

/-- A report of Field Link Controller n, built now. Its stage byte is a free value (log 10). -/
def State.linkReport (s : State) (n : LineNo) (kind : ReportKind) (detail : BitVec 7) (valueA valueB : Long) : Report :=
  { kind := kind, detail := detail, line := lineByte n, stage := Config.freeLinkReportStage s.freeCount,
    time := s.clock, valueA := valueA, valueB := valueB }

/-- A report of Field Link Controller n, built and handed over at once. -/
def State.handLink (s : State) (n : LineNo) (kind : ReportKind) (detail : BitVec 7) (valueA valueB : Long) : State :=
  (s.hand (s.linkReport n kind detail valueA valueB)).useFree

/-! ### Frames on the downlink (R85, R87, R140, R144) -/

/-- The supervisor answers a SETPOINT or a REFRESH (R85): flow and effective ceiling, which becomes the last sent. -/
def setpointPayload (l : Line) : List Byte := wordChars l.admitted ++ wordChars l.effectiveCeiling

/-- Field Link Controller n takes a command frame for sending (R140, steps 1 to 3). -/
def State.sendCommand (s : State) (n : LineNo) (kind : CommandKind) : State :=
  let k := s.link n
  let l := s.line n
  let sync := s.config.syncCode
  let sent (payload : List Byte) : Link :=
    { k with
      downlinkSeq := k.downlinkSeq + 1
      inFlight := some ⟨kind, k.downlinkSeq, false⟩
      wire := .sending (.command kind) (frameChars sync (.command kind) k.downlinkSeq payload) }
  match kind with
  | .setpoint => (s.setLine n { l with lastSentCeiling := l.effectiveCeiling }).setLink n (sent (setpointPayload l))
  | .mix =>
    match l.copy with
    | some _ => s.setLink n (sent [l.mixCode l.mixIndex])
    | none => (s.setLink n (sent [Config.freeMixCode s.freeCount])).useFree
  | .stop => s.setLink n { sent [] with stopWaiting := false }

/-- The post of LAST COMMAND (R148). -/
def lastCommandPost (n : LineNo) (kind : CommandKind) (seq : Byte) (status : CommandStatus) : Act :=
  postLine n 22 (lastCommandWord kind seq status)

/-- Field Link Controller n takes a REFRESH (R144): the SEQ of the last command frame sent, no slot, no timer. -/
def State.sendRefresh (s : State) (n : LineNo) : State :=
  let k := s.link n
  let l := s.line n
  (s.setLine n { l with lastSentCeiling := l.effectiveCeiling }).setLink n
    { k with wire := .sending .refresh
              (frameChars s.config.syncCode .refresh (k.downlinkSeq - 1) (setpointPayload l)) }

/-- Discard an expiry not yet taken at a link (R141, R142, R147). -/
def Link.discard (k : Link) (e : LinkInput) : Link :=
  { k with arrivals := k.arrivals.filter (fun a => a.input != e) }

/-- Stop the answer timer; an expiry not yet taken is discarded. -/
def Link.stopAnswerTimer (k : Link) : Link := { k.discard .answerExpiry with answerTimer := .stopped }

/-- The STOP is taken (R141): a command AWAITING is superseded, and then the STOP enters the slot. -/
def State.takeStop (s : State) (n : LineNo) : State × List Act :=
  let k := s.link n
  let send := [Act.enterStop n, lastCommandPost n .stop k.downlinkSeq .awaiting]
  match k.inFlight with
  | some c =>
    (s.setLink n { k.stopAnswerTimer with inFlight := none }, lastCommandPost n c.kind c.seq .superseded :: send)
  | none => (s, send)

/-- The kind of command frame a request asks for. -/
def RequestKind.command : RequestKind → CommandKind
  | .setpoint => .setpoint
  | .mix => .mix

/-- Take the head of PENDING if the wire is sending fill, IN FLIGHT is empty and no STOP waits (R139, R140). -/
def State.takePending (s : State) (n : LineNo) : State × List Act :=
  let k := s.link n
  match k.pending with
  | [] => (s, [])
  | r :: rest =>
    if k.wire = .fill ∧ k.inFlight = none ∧ k.stopWaiting = false then
      ((s.setLink n { k with pending := rest }).sendCommand n r.command,
        [lastCommandPost n r.command k.downlinkSeq .awaiting])
    else (s, [])

/-- Take whatever the free wire may carry next: a waiting STOP, the head of PENDING, an owed REFRESH (R140). -/
def State.takeNext (s : State) (n : LineNo) : State × List Act :=
  let k := s.link n
  if k.wire ≠ .fill then (s, [])
  else if k.stopWaiting then s.takeStop n
  else if k.pending ≠ [] then s.takePending n
  else if k.refreshOwed then (s.sendRefresh n, [])
  else (s, [])

/-- A SETPOINT is requested where the effective ceiling now differs from the last sent, in INJECTING and CLOSING (R82). -/
def State.requestCeiling (s : State) (n : LineNo) : State :=
  if (s.line n).state.flowing && (s.line n).effectiveCeiling != (s.line n).lastSentCeiling
    then s.arrive n (.request .setpoint) else s

/-! ### The ring indexes (R12, R164, R165) -/

/-- (a − b) mod size. -/
def modDiff (size a b : Nat) : Nat := (a + (size - b % size)) % size

/-- The fill mark (R165): three quarters of size − 1, rounded down. -/
def fillMark (size : Nat) : Nat := 3 * (size - 1) / 4

/-- The record in flight is written (R164): the writer judges the ring's fill and raises RING at the mark (R165). -/
def State.recordWritten (s : State) : State :=
  let s' := { s with report := { s.report with inFlight := none } }
  match s.report.ring with
  | some r => if fillMark r.size ≤ modDiff r.size s.report.producer s.report.consumer then s'.raise { cls := .ring } else s'
  | none => s'

/-! ### Acts -/

/-- Do one act. A post is done by its acceptance. -/
def State.perform (s : State) : Act → State
  | .post p => s.accept p
  | .hand r => s.hand r
  | .request n k => s.arrive n (.request k)
  | .requestCeiling n => s.requestCeiling n
  | .restartRamp n => s.setLine n (s.line n).restartRamp
  | .stop n => s.arrive n .stop
  | .restart n => s.arrive n .restart
  | .rearm n => s.arrive n .rearm
  | .observe o => { s with observations := s.observations ++ [o] }
  | .plantStop c =>
    { s with lines := s.lines.map fun l => { l with mail := { l.mail with plantStops := l.mail.plantStops ++ [c] } } }
  | .tell n e =>
    let l := s.line n
    s.setLine n { l with mail := { l.mail with linkEvents := l.mail.linkEvents ++ [e] } }
  | .answer value reason stage =>
    match s.cycle with
    | .taken w =>
      match reason with
      | none => { s with cycle := .write { w with value := value } }
      | some r => { s with cycle := .answered w value r stage }
    | _ => s
  | .ask =>
    match s.cycle with
    | .taken w => { s with cycle := .write w }
    | _ => s
  | .recordPosted =>
    match s.cycle with
    | .answering w => { s with cycle := .write w }
    | .refusing _ => { s with cycle := .idle }
    | _ => s
  | .loadNotice => { s with alert := { s.alert with loadNotices := s.alert.loadNotices + 1 } }
  | .loadEnded p => { s with report := { s.report with paused := false, placement := p } }
  | .notifyLinks =>
    { s with links := s.links.map fun k => { k with arrivals := k.arrivals ++ [⟨.notice, false⟩] } }
  | .enterStop n => s.sendCommand n .stop
  | .setProducer v => { s with report := { s.report with producer := v } }
  | .recordWritten => s.recordWritten
  | .placed => { s with report := { s.report with placement := false } }

/-- Do the acts of a block's operation in order, up to its end (true) or to its first post that waits (false). The
waiting post joins the list with what is left of the operation (R26). -/
def State.runActs (b : Block) (cont : Option Cont) : List Act → State → State × Bool
  | [], s => (s, true)
  | .post p :: rest, s =>
    if s.takesPost p then State.runActs b cont rest (s.accept p)
    else ({ s with waiting := s.waiting ++ [⟨b, p, rest, cont⟩] }, false)
  | a :: rest, s => State.runActs b cont rest (s.perform a)

end Sys2Proof.Machine
end

