-- ==== Sys2Proof/Machine/Sampling.lean ====
section
/-! DEFINITION. The steps of the sample operation on the line context (chapter 6, R94 to R104, R108, R109; chapter 7,
R113, R114, R120, R124, R125). -/

namespace Sys2Proof.Machine

/-! ### Step 2: volume and take -/

/-- Volume, take and ceilings after a meter difference (R97). -/
def Line.addVolume (l : Line) (d : Word) : Line :=
  let volume : Long := BitVec.ofNat 32 (min 0xFFFFFFFF (l.volume.toNat + d.toNat))
  let take : Word := BitVec.ofNat 16 (min 65535 (volume.toNat / l.length))
  let intensity := l.intensityAt take
  { l with volume := volume, take := take, intensityCeiling := intensity,
           effectiveCeiling := Line.effectiveAt l.ceilingRequest intensity }

/-- The METER_JUMP report (R98). -/
def meterJumpReport (n : LineNo) (l : Line) (x : Sample) (baseline : Word) : Report :=
  { kind := .meterJump
    line := lineByte n
    stage := stageByte l.stage
    time := x.arrival
    valueA := longOf x.meter baseline
    valueB := longOf (x.meter - baseline) (l.stageWord 17) }

/-- The effective ceiling has fallen 10 kPa or more below the last sent (R84). -/
def Line.ceilingDropped (l : Line) : Bool := l.effectiveCeiling.toNat + 10 ≤ l.lastSentCeiling.toNat

/-- The accounting of a sample in BOUND, INJECTING, CLOSING and HOLDING (R97, R98), with the request of R84. -/
def meterAccount (n : LineNo) (l : Line) (x : Sample) : Line × List Act :=
  match l.meterBaseline with
  | none => ({ l with meterBaseline := some x.meter }, [])
  | some baseline =>
    let moved := { l with meterBaseline := some x.meter }
    if l.stageWord 17 < x.meter - baseline then (moved, [.hand (meterJumpReport n l x baseline)])
    else
      let l' := moved.addVolume (x.meter - baseline)
      (l', if l.state.flowing && l'.volume != l.volume && l'.ceilingDropped then [.request n .setpoint] else [])

/-- Step 2 (R96). -/
def meterStep (n : LineNo) (l : Line) (x : Sample) : Line × List Act :=
  match l.state with
  | .vacant => (l, [])
  | .binding => (l, [])
  | .bound => meterAccount n l x
  | .injecting => meterAccount n l x
  | .closing => meterAccount n l x
  | .holding => meterAccount n l x
  | .ended => ({ l with meterBaseline := some x.meter }, [])
  | .tripped => ({ l with meterBaseline := some x.meter }, [])

/-! ### Step 3: the measurement words (R99) -/

/-- The posts of step 3, in order. -/
def measurementPosts (n : LineNo) (l : Line) (x : Sample) : List Act :=
  [ postLine n 7 x.pressure,
    postLine n 8 x.flow,
    postLine n 9 x.uplift,
    postLine n 16 (l.flags.setWidth 16),
    postLine n 10 (lowWord l.volume),
    postLine n 11 (highWord l.volume),
    postLine n 12 l.take,
    postLine n 13 l.intensityCeiling,
    postLine n 14 l.effectiveCeiling,
    postLine n 15 l.admitted ] ++
  (if l.state = .closing then [postLine n 19 l.dwell.secondsLeft] else []) ++
  [ postLine n 17 (lowWord x.arrival),
    postLine n 18 (highWord x.arrival) ]

/-! ### Step 4: the sample window (R100) -/

/-- Append a pair; the eight newest are kept. -/
def windowAppend (w : List (Word × Word)) (p : Word × Word) : List (Word × Word) :=
  (w ++ [p]).drop (w.length + 1 - Config.windowSize)

/-! ### Step 5: trip checks (R113, R114) -/

/-- The pair of highest pressure, of several the one nearest the head (R114). -/
def peakPair : List (Word × Word) → Word × Word
  | [] => (0, 0)
  | p :: rest => rest.foldl (fun best q => if best.1 < q.1 then q else best) p

/-- The break condition on the window, with this sample's pair as its newest (R114). -/
def pressureBreak (l : Line) (x : Sample) : Bool :=
  let pk := peakPair l.window
  4 ≤ l.window.length &&
  100 ≤ pk.1.toNat &&
  x.pressure.toNat * 100 + pk.1.toNat * (l.stageWord 13).toNat ≤ pk.1.toNat * 100 &&
  pk.2.toNat * (100 + (l.stageWord 14).toNat) ≤ x.flow.toNat * 100

/-- The first trip condition that holds, with the report's values (R113, R116). -/
def tripCheck (l : Line) (x : Sample) : Option (TripCause × Long × Long) :=
  if l.overLimit < x.pressure.toNat then
    some (.overpressure, longOf x.pressure (BitVec.ofNat 16 l.overLimit), longOf x.flow l.admitted)
  else if l.upliftCheck && l.stageWord 15 < x.uplift then
    some (.uplift, longOf x.uplift (l.stageWord 15), longOf x.pressure x.flow)
  else if driveFault l.flags then
    some (.driveFault, longOf x.pressure x.flow, longOf (l.flags.setWidth 16) 0)
  else if l.state.flowing && pressureBreak l x then
    some (.pressureBreak, longOf x.pressure x.flow, longOf (peakPair l.window).1 (peakPair l.window).2)
  else none

/-! ### Step 5: hold checks (R120) -/

/-- The first hold condition that holds. -/
def holdCheck (l : Line) : Option HoldReason :=
  if localStop l.flags then some .localStop
  else if packerLeak l.flags then some .packerLeak
  else if groutReturn l.flags && l.surfaceCheck then some .surfaceLeak
  else none

/-! ### Step 5: ends and the closing dwell (R102, R103, R108, R109) -/

/-- The refusal condition of a sample (6.6). -/
def refusalCondition (l : Line) (x : Sample) : Bool := l.refusalPressure ≤ x.pressure && x.flow ≤ l.refusalFlow

/-- The refusal check in INJECTING (R102) and in CLOSING (R103). -/
def refusalCheck (n : LineNo) (l : Line) (x : Sample) : Line × List Act :=
  if l.state = .closing then
    if refusalCondition l x then (l, [])
    else
      let l' := l.returnInjecting
      (l', postLine n 19 0 :: statePosts n l')
  else
    if refusalCondition l x then
      let l' := l.enterClosing
      (l', postLine n 19 l.closingDwell :: statePosts n l')
    else (l, [])

/-! ### Step 5: baseline, rise and return (R124, R125) -/

/-- The rise flag is set: the state word is posted and the observation sent (R124, R125). -/
def observed (n : LineNo) (l : Line) (x : Sample) (isReturn : Bool) (baseline : Word) : Line × List Act :=
  let l' := { l with riseFlag := true }
  (l', postLine n 4 (stateWord l') ::
    (match l.stage with
      | some st => [.observe ⟨n, st, isReturn, x.pressure, baseline⟩]
      | none => []))

/-- Baseline, rise and return, for a line the trip checks have not tripped (R124, R125). -/
def idleChecks (n : LineNo) (l : Line) (x : Sample) : Line × List Act :=
  if l.settle ≠ .stopped then (l, [])
  else
    let baseline := l.baseline.getD x.pressure
    let l' := { l with baseline := some baseline }
    if l.riseFlag then (l', [])
    else if baseline.toNat + (l.stageWord 16).toNat ≤ x.pressure.toNat then observed n l' x false baseline
    else if groutReturn l.flags then observed n l' x true baseline
    else (l', [])

/-! ### Step 5 as a whole (R101) -/

/-- The posts and then the requests and report of a move. -/
def moveActs (m : Line × List Act × List Act) : Line × List Act := (m.1, m.2.1 ++ m.2.2)

/-- The checks of INJECTING and CLOSING, in order; the first that moves the line ends them (R101). -/
def flowingChecks (n : LineNo) (l : Line) (x : Sample) (now : Long) : Line × List Act :=
  match tripCheck l x with
  | some (c, a, b) => moveActs (tripMove n l c x.arrival a b)
  | none =>
    match holdCheck l with
    | some r => moveActs (holdMove n l r x.arrival (longOf x.pressure x.flow) (longOf (l.flags.setWidth 16) 0))
    | none =>
      if l.vmax ≤ l.take then moveActs (endMove n l .volumeCap now)
      else if l.intensityCeiling < l.refusalPressure then moveActs (endMove n l .intensity now)
      else refusalCheck n l x

/-- The checks of BOUND and HOLDING (R101). -/
def boundChecks (n : LineNo) (l : Line) (x : Sample) : Line × List Act :=
  match tripCheck l x with
  | some (c, a, b) => moveActs (tripMove n l c x.arrival a b)
  | none => idleChecks n l x

/-- Steps 4 and 5 of the sample operation (R100, R101). -/
def sampleChecks (n : LineNo) (l : Line) (x : Sample) (now : Long) : Line × List Act :=
  match l.state with
  | .vacant => (l, [])
  | .binding => (l, [])
  | .bound => boundChecks n l x
  | .holding => boundChecks n l x
  | .injecting => flowingChecks n { l with window := windowAppend l.window (x.pressure, x.flow) } x now
  | .closing => flowingChecks n { l with window := windowAppend l.window (x.pressure, x.flow) } x now
  | .ended => (l, [])
  | .tripped => (l, [])

end Sys2Proof.Machine
end

