-- ==== Sys2Proof/Machine/Operation.lean ====
section
/-! DEFINITION. Running a block's operation, what follows when it ends, and the resumption of an operation whose
waiting post has been accepted (R26, R51, R152). -/

namespace Sys2Proof.Machine

/-! ### Operations -/

/-- What an operation goes on to when its acts are done. -/
def State.startCont (s : State) : Cont → State × List Act
  | .sampleChecks n x =>
    let r := sampleChecks n (s.line n) x s.clock
    (s.setLine n r.1, r.2)
  | .takeNext n => s.takeNext n
  | .takePending n => s.takePending n

/-- Run an operation of a block: its acts, then what it goes on to. It stops at the first post that waits. -/
def State.operate (s : State) (b : Block) (acts : List Act) (cont : Option Cont) : State :=
  match s.runActs b cont acts with
  | (s', false) => s'
  | (s', true) =>
    match cont with
    | none => s'
    | some c => ((s'.startCont c).1.runActs b none (s'.startCont c).2).1

/-! ### Refusals at the Pass-Through Unit (R14, R15) -/

/-- The WRITE_REFUSED report (R15). -/
def writeRefusedReport (w : HostWrite) (reason : RefuseReason) (stage : Byte) (now : Long) : Report :=
  { kind := .writeRefused
    line := addrLine w.addr
    stage := stage
    time := now
    valueA := w.addr.setWidth 32
    valueB := longOf w.value (wordOf w.lanes.code (lowByte reason.code)) }

/-- The Pass-Through Unit's operation at a refusal: the three words of the record, then the report, then the end of
the cycle or the request for the port (R14, R15). -/
def refusalActs (w : HostWrite) (reason : RefuseReason) (stage : Byte) (now : Long) : List Act :=
  [ .post ⟨statusAddr 6, reason.code⟩,
    .post ⟨statusAddr 7, w.addr.setWidth 16⟩,
    .post ⟨statusAddr 8, (w.addr >>> 16).setWidth 16⟩,
    .hand (writeRefusedReport w reason stage now),
    .recordPosted ]

/-- A write is refused outright (R14). -/
def State.refuseOutright (s : State) (w : HostWrite) (reason : RefuseReason) (stage : Byte) : State :=
  State.operate { s with cycle := .refusing w, refusal := ⟨some reason, w.addr⟩ } .passThrough
    (refusalActs w reason stage s.clock) none

/-- The Pass-Through Unit acts on a supervisor's answer that carries a reason (R11): the write is answered as refused,
recorded and reported, and then asks for the port with the supervisor's value. -/
def State.react (s : State) : State :=
  match s.cycle with
  | .answered w value reason stage =>
    State.operate { s with cycle := .answering { w with value := value }, refusal := ⟨some reason, w.addr⟩ }
      .passThrough (refusalActs w reason stage s.clock) none
  | _ => s

/-! ### Events at a Field Link Controller (R152, log 12, log 13) -/

/-- Who an event at a Field Link Controller comes from. Events of one source are taken in the order in which they
arose. -/
inductive InputSource where
  | receiver
  | supervisor
  | answerTimer
  | refreshTimer
  | sampleTimer
  | own
  deriving DecidableEq, Repr

/-- The source of an event. -/
def LinkInput.source : LinkInput → InputSource
  | .judge _ => .receiver
  | .answer _ _ => .receiver
  | .request _ => .supervisor
  | .stop => .supervisor
  | .restart => .supervisor
  | .rearm => .supervisor
  | .answerExpiry => .answerTimer
  | .refreshExpiry => .refreshTimer
  | .sampleExpiry => .sampleTimer
  | .takeNext => .own
  | .notice => .own

/-- The next event of a source that may be taken, and the events left. Events that waited behind a post come first,
in the order in which they arose (R152); otherwise the oldest of the source. -/
def Link.nextInput (k : Link) (src : InputSource) : Option (LinkInput × List LinkArrival) :=
  match k.arrivals with
  | [] => none
  | a :: rest =>
    if a.waited then
      if a.input.source = src then some (a.input, rest) else none
    else (extractFirst (fun e => e.input.source == src) (a :: rest)).map fun r => (r.1.input, r.2)

/-- A successful load has enabled the line of an OFF link (R146). -/
def Link.enable (k : Link) (c : ConfigUnit) : Link :=
  { k with
    state := .hunting
    watch := .present
    watchTimer := .running Config.clockWatchPeriod
    watchExpiry := none
    receiver := .hunting
    huntBits := []
    assembly := []
    wire := .fill
    wireRate := c.word 1
    refreshTimer := .running (c.word 5).toNat }

/-- A successful load has disabled the line of a link (R147). What the receiver and the timers have sent to the
controller is dropped with them (log 25). -/
def Link.disable (k : Link) : Link :=
  { k with
    state := .off
    watch := .stopped
    watchTimer := .stopped
    watchExpiry := none
    receiver := .idle
    huntBits := []
    assembly := []
    fifo := []
    overrun := none
    wire := .quiet
    inFlight := none
    pending := []
    stopWaiting := false
    refreshOwed := false
    answerTimer := .stopped
    refreshTimer := .stopped
    sampleTimer := .stopped
    flagsSeen := 0
    latchOpen := true
    latchedFlags := 0
    arrivals := k.arrivals.filter fun a => a.input.source == .supervisor || a.input == .notice }

/-- Field Link Controller n takes the notice of a new image (R174, R146, R147, R151). -/
def State.imageNotice (s : State) (n : LineNo) : State × List Act :=
  let k := s.link n
  if s.config.enabled n then
    if k.state = .off then
      let k' := k.enable s.config
      (s.setLink n k', [postLine n 20 (linkStateWord k'), .tell n (.stateChange .hunting)])
    else if k.wire = .fill then (s.setLink n { k with wireRate := s.config.word 1 }, [])
    else (s, [])
  else if k.state = .off then (s, [])
  else
    let k' := k.disable
    (s.setLink n k',
      (match k.inFlight with
        | some c => [lastCommandPost n c.kind c.seq .superseded]
        | none => []) ++
      [postLine n 21 (latchedFlagsWord k'), postLine n 20 (linkStateWord k'), .tell n (.stateChange .off)])

/-- The controller takes one of its own waiting events: the next frame for the wire, or the notice of a new image. -/
def State.takeOwn (s : State) (n : LineNo) : LinkInput → State × List Act
  | .takeNext => s.takeNext n
  | .notice => s.imageNotice n
  | _ => (s, [])

/-- A controller with no operation in flight takes its own waiting events when their turn comes, up to `count` of
them. -/
def State.flushLink (n : LineNo) : Nat → State → State
  | 0, s => s
  | count + 1, s =>
    if s.busy (.link n) then s
    else
      match (s.link n).nextInput .own with
      | none => s
      | some (e, rest) =>
        let s' := s.setLink n { s.link n with arrivals := rest }
        State.flushLink n count ((s'.takeOwn n e).1.operate (.link n) (s'.takeOwn n e).2 none)

/-- As many of its own events as the controller holds. -/
def State.flush (s : State) (n : LineNo) : State := State.flushLink n (s.link n).arrivals.length s

/-- Every controller takes its own waiting events (R174). The spec leaves the posts of different controllers
unordered; that they are made in ascending line number is the model's choice (log 13). -/
def State.flushAll (s : State) : State :=
  (((((((s.flush 0).flush 1).flush 2).flush 3).flush 4).flush 5).flush 6).flush 7

/-- The events at a controller whose operation has ended after a wait are taken in the order in which they arose
(R152). -/
def State.markWaited (s : State) (n : LineNo) : State :=
  let k := s.link n
  s.setLink n { k with arrivals := k.arrivals.map fun a => { a with waited := true } }

/-! ### Operations with what follows them -/

/-- What follows a block's operation in the same step. -/
def State.afterOperation (s : State) : Block → State
  | .passThrough => s
  | .line _ => s.react
  | .link n => s.flush n
  | .alert => s
  | .config => s.flushAll
  | .report => s

/-- Run an operation and what follows it. -/
def State.operation (s : State) (b : Block) (acts : List Act) (cont : Option Cont := none) : State :=
  (s.operate b acts cont).afterOperation b

/-- A controller whose operation has ended marks the events that waited behind it. -/
def State.endWait (s : State) : Block → State
  | .link n => if s.busy (.link n) then s else s.markWaited n
  | .passThrough => s
  | .line _ => s
  | .alert => s
  | .config => s
  | .report => s

/-- A block whose waiting post has been accepted resumes its operation (R26). -/
def State.resume (s : State) (w : WaitingPost) : State := s.operate w.block w.rest w.cont

/-- What follows a resumed operation. -/
def State.resumed (s : State) (w : WaitingPost) : State := (s.endWait w.block).afterOperation w.block

/-- The blocks whose posts have been accepted resume, in the order of acceptance. -/
def State.resumeAll (s : State) (accepted : List WaitingPost) : State :=
  accepted.foldl State.resumed (accepted.foldl State.resume s)

/-- The acceptance of waiting posts when a drain has freed a place (R26): the oldest is taken; one that replaces an
entry uses no place, so the next is taken at once; one that is appended uses the place. Gives the posts accepted. -/
def State.acceptWaiting : List WaitingPost → State → State × List WaitingPost
  | [], s => ({ s with waiting := [] }, [])
  | w :: rest, s =>
    if queued s.queue w.post.addr then
      let r := State.acceptWaiting rest (s.accept w.post)
      (r.1, w :: r.2)
    else if s.queue.length < Config.queueCapacity then ({ s.accept w.post with waiting := rest }, [w])
    else ({ s with waiting := w :: rest }, [])

end Sys2Proof.Machine
end

