-- ==== Sys2Proof/Machine/Guard.lean ====
section
/-! DEFINITION. The guard commands as the Alert Controller takes them, the plant stop and its reports, and the Alert
Controller's other events (chapter 9, R154 to R162). -/

namespace Sys2Proof.Machine

/-- Judge ALERT afresh (R155). -/
def AlertUnit.judged (a : AlertUnit) (mask : Word) : AlertUnit := { a with alert := alertLevel a.pending mask }

/-- The number of lines INJECTING or CLOSING (R162). -/
def State.flowingLines (s : State) : Nat := (s.lines.toList.filter fun l => l.state.flowing).length

/-- The PLANT_STOP report of an assertion (R162). -/
def State.assertReport (s : State) (cause : PlantCause) : Report :=
  { kind := .plantStop
    detail := cause.code.setWidth 7
    time := s.clock
    valueA := longOf 1 (BitVec.ofNat 16 s.flowingLines)
    valueB := longOf (alertPendingWord s.alert) 0 }

/-- The PLANT_STOP report of a release (R162). -/
def State.releaseReport (s : State) (cause : PlantCause) : Report :=
  { kind := .plantStop
    detail := cause.code.setWidth 7
    time := s.clock
    valueA := 0
    valueB := s.alert.assertedAt }

/-- The post of GUARD OUTCOME (R156, R169). -/
def guardPost (code : Byte) (removed : Nat) (o : GuardOutcome) : Act :=
  .post ⟨statusAddr 1, guardOutcomeWord code removed o⟩

/-- A guard command of code 00h: nothing changes and nothing is posted (R156). -/
def State.guardNone (s : State) : State := s.operation .alert [.ask]

/-- A guard command of an unknown code (R156). -/
def State.guardUnknown (s : State) (code : Byte) : State := s.operation .alert [guardPost code 0 .unknown, .ask]

/-- The Alert Controller after the removal of a class (R157). -/
def AlertUnit.remove (a : AlertUnit) (c : AlertClass) (mask : Word) : AlertUnit :=
  { a with
    pending := a.pending &&& ~~~(1#6 <<< c.bit)
    ackTimer := if c = AlertClass.trip then .stopped else a.ackTimer }.judged mask

/-- ACKNOWLEDGE (R157). -/
def State.guardAcknowledge (s : State) : State :=
  match highestClass s.alert.pending with
  | none => s.operation .alert [guardPost 0x01 0 .nothingPending, .ask]
  | some c =>
    let a := s.alert.remove c s.config.mask
    State.operation { s with alert := a } .alert
      [.post ⟨statusAddr 2, alertPendingWord a⟩, guardPost 0x01 (c.bit + 1) .done, .ask]

/-- The Alert Controller with PLANT STOP asserted now (R159, R160). -/
def AlertUnit.assertStop (a : AlertUnit) (cause : PlantCause) (now : Long) : AlertUnit :=
  { a with plantStop := some cause, assertedAt := now }

/-- STOP_ALL (R159). -/
def State.guardStopAll (s : State) : State :=
  match s.alert.plantStop with
  | none =>
    let a := s.alert.assertStop .stopAll s.clock
    State.operation { s with alert := a } .alert
      [.post ⟨statusAddr 3, plantStopWord a⟩, guardPost 0x02 0 .done, .plantStop .stopAll,
        .hand (s.assertReport .stopAll), .ask]
  | some .reset =>
    let a := { s.alert with plantStop := some .stopAll }
    State.operation { s with alert := a } .alert
      [.post ⟨statusAddr 3, plantStopWord a⟩, guardPost 0x02 0 .done, .ask]
  | some .stopAll => s.operation .alert [guardPost 0x02 0 .done, .ask]
  | some .ackTimeout => s.operation .alert [guardPost 0x02 0 .done, .ask]

/-- The act hands over a line's TRIP report. -/
def Act.handsTrip : Act → Bool
  | .hand r => r.kind == .trip
  | _ => false

/-- A line has tripped and the Alert Controller has not yet taken the raise of its TRIP report: the supervisor has the
report still to hand over, the Report Writer has it to take, or the raise is sent. R161 has a RELEASE_STOP find TRIP
pending from it (log 39). The raise of a PLANT_STOP report is not one of them. -/
def State.tripOnItsWay (s : State) : Bool :=
  s.alert.raises.any Raise.ofTrip || s.report.handed.any (fun r => r.kind == .trip) ||
  s.waiting.any fun w => w.rest.any Act.handsTrip

/-- RELEASE_STOP finds TRIP pending (R161). -/
def State.tripPending (s : State) : Bool := s.alert.pending.getLsbD AlertClass.trip.bit || s.tripOnItsWay

/-- RELEASE_STOP (R161). -/
def State.guardReleaseStop (s : State) : State :=
  match s.alert.plantStop with
  | none => s.operation .alert [guardPost 0x03 0 .done, .ask]
  | some cause =>
    if s.config.image = none ∨ s.tripPending ∨ s.flowingLines ≠ 0 then
      s.operation .alert [guardPost 0x03 0 .stopConditions, .ask]
    else
      let a := { s.alert with plantStop := none }
      State.operation { s with alert := a } .alert
        [.post ⟨statusAddr 3, plantStopWord a⟩, guardPost 0x03 0 .done, .hand (s.releaseReport cause), .ask]

/-- The Alert Controller takes a guard command and decodes its code (R156). -/
def State.guardCommand (s : State) (code : Byte) : State :=
  if code = 0x00 then s.guardNone
  else if code = 0x01 then s.guardAcknowledge
  else if code = 0x02 then s.guardStopAll
  else if code = 0x03 then s.guardReleaseStop
  else s.guardUnknown code

/-! ### The Alert Controller's other events -/

/-- A class joins the pending set (R154). The acknowledge timer starts for TRIP with an image loaded. -/
def AlertUnit.join (a : AlertUnit) (c : AlertClass) (config : ConfigUnit) : AlertUnit :=
  { a with
    pending := a.pending ||| (1#6 <<< c.bit)
    ackTimer := if c = AlertClass.trip ∧ config.image ≠ none then .seconds (config.word 6) else a.ackTimer }.judged config.mask

/-- The Alert Controller takes a raise of class c (R154). -/
def State.takeRaise (s : State) (c : AlertClass) : State :=
  if s.alert.pending.getLsbD c.bit then s
  else
    let a := s.alert.join c s.config
    State.operation { s with alert := a } .alert [.post ⟨statusAddr 2, alertPendingWord a⟩]

/-- ALERT_RAISE (R154): the oldest raise of this class that was sent is taken. -/
def execAlertRaise (c : AlertClass) (s : State) : Host.Outcome State Fault Refusal :=
  .next <|
    if s.busy .alert then s
    else
      match extractFirst (fun r => r.cls == c) s.alert.raises with
      | none => s
      | some (_, rest) => State.takeRaise { s with alert := { s.alert with raises := rest } } c

/-- ACK_TIMEOUT (R160). -/
def execAckTimeout (s : State) : Host.Outcome State Fault Refusal :=
  .next <|
    if s.busy .alert || !s.alert.ackTimer.due then s
    else
      let stopped := { s.alert with ackTimer := .stopped }
      match s.alert.plantStop with
      | some _ => { s with alert := stopped }
      | none =>
        let a := stopped.assertStop .ackTimeout s.clock
        State.operation { s with alert := a } .alert
          [.post ⟨statusAddr 3, plantStopWord a⟩, .plantStop .ackTimeout, .hand (s.assertReport .ackTimeout)]

/-- The Alert Controller takes the notice of a successful load (R155, R158). Status word 2 is posted before status
word 3, in the order R156 gives for commands; for the notice the spec gives none (log 37). -/
def State.takeLoadNotice (s : State) : State :=
  let judged := s.alert.judged s.config.mask
  let posts := if judged.alert = s.alert.alert then [] else [Act.post ⟨statusAddr 2, alertPendingWord judged⟩]
  if s.alert.plantStop = some .reset then
    let a := { judged with plantStop := none }
    State.operation { s with alert := a } .alert
      (posts ++ [.post ⟨statusAddr 3, plantStopWord a⟩, .hand (s.releaseReport .reset)])
  else State.operation { s with alert := judged } .alert posts

/-- LOAD_NOTICE (R158): a notice that was sent is taken. -/
def execLoadNotice (s : State) : Host.Outcome State Fault Refusal :=
  .next <|
    if s.busy .alert then s
    else
      match s.alert.loadNotices with
      | 0 => s
      | k + 1 => State.takeLoadNotice { s with alert := { s.alert with loadNotices := k } }

end Sys2Proof.Machine
end

