-- ==== Sys2Proof/Machine/Configuration.lean ====
section
/-! DEFINITION. The Configuration Unit (chapter 10, R168 to R174): LOAD_CONFIG, the validation of a load image, and the
end of a load. -/

namespace Sys2Proof.Machine

/-! ### LOAD_CONFIG (R169) -/

/-- LOAD_CONFIG is refused BUSY: a load in flight, or LOADED with a ring placement pending (R169). -/
def State.loadBusy (s : State) : Bool :=
  s.config.load == .loading || (s.config.load == .loaded && s.report.placement)

/-- The post of CONFIGURATION STATE (11.2, word 4). -/
def loadStatePost (l : LoadState) : Act := .post ⟨statusAddr 4, loadStateWord l⟩

/-- The Configuration Unit takes LOAD_CONFIG (R169). -/
def State.takeLoadConfig (s : State) : State :=
  if s.loadBusy then s.operation .config [guardPost 0x04 0 .busy, .ask]
  else
    State.operation
      { s with
        config := { s.config with load := .loading, loadImage := some (Vector.replicate 12 0) }
        jobs := s.jobs ++ [.load 0]
        report := { s.report with paused := true } }
      .config [loadStatePost .loading, guardPost 0x04 0 .inProgress, .ask]

/-! ### Validation (R168, R171, R172) -/

/-- A failure of validation: the failing word, the step and the value found. -/
structure LoadFailure where
  word : Nat
  step : Nat
  found : Word
  deriving DecidableEq, Repr

/-- A sync code within range (R168). -/
def syncInRange (c : Byte) : Bool :=
  c != 0x00 && c != 0xFF && c != sampleKind && c != answerKind &&
  c != 0xA5 && c != 0xC3 && c != 0x0F && c != 0x69

/-- Configuration word k is within its range (R168). Word 11 has none. -/
def wordInRange (k : Nat) (w : Word) : Bool :=
  if k = 0 then w.toNat ≤ 0xFF
  else if k = 1 then w.toNat ≤ 3
  else if k = 2 then syncInRange (lowByte w)
  else if k = 3 then 50 ≤ w.toNat && w.toNat ≤ 2000
  else if k = 4 then 20 ≤ w.toNat && w.toNat ≤ 500
  else if k = 5 then 100 ≤ w.toNat && w.toNat ≤ 2000
  else if k = 6 then 1 ≤ w.toNat && w.toNat ≤ 60
  else if k = 7 then w &&& ~~~0x003C == 0
  else if k = 8 then w.toNat ≤ 508 || w == 0xFFFF
  else if k = 9 then w.toNat ≤ 0xFF7F
  else if k = 10 then 16 ≤ w.toNat && w.toNat ≤ 256
  else true

/-- Step 1, the check (R171). -/
def checkFailure (i : Vector Word 12) : Option LoadFailure :=
  if checkSum i.toList = 0 then none else some ⟨11, 1, checkSum i.toList⟩

/-- Step 2, the ranges (R171): the first word of 0 to 10 outside its range. -/
def rangeFailure (i : Vector Word 12) : Option LoadFailure :=
  (([0, 1, 2, 3, 4, 5, 6, 7, 8, 9, 10] : List (Fin 12)).find? fun k => !wordInRange k.val i[k]).map
    fun k => ⟨k.val, 2, i[k]⟩

/-- The ring and the table of an image have an address in common (R171). -/
def ringMeetsTable (i : Vector Word 12) : Bool :=
  match tableOf i with
  | none => false
  | some t => (ringOf i).base < t + 6144 && t < (ringOf i).base + 16 * (ringOf i).size

/-- Step 3, the overlaps (R171). -/
def overlapFailure (i : Vector Word 12) : Option LoadFailure :=
  if 0xFF800 < (ringOf i).base + 16 * (ringOf i).size then some ⟨10, 3, i[10]⟩
  else if ringMeetsTable i then some ⟨9, 3, i[9]⟩
  else none

/-- A STOP is waiting at a link, or is SENDING or AWAITING in IN FLIGHT (R172). -/
def Link.stopOutstanding (k : Link) : Bool :=
  k.stopWaiting ||
  match k.inFlight with
  | some c => c.kind == .stop
  | none => false

/-- Line n is in use (R172). -/
def State.lineInUse (s : State) (n : LineNo) : Bool := (s.line n).state != .vacant || (s.link n).stopOutstanding

/-- The lines. -/
def allLines : List LineNo := [0, 1, 2, 3, 4, 5, 6, 7]

/-- Step 4, the lines in use (R172). -/
def State.inUseFailure (s : State) (i : Vector Word 12) : Option LoadFailure :=
  let used := allLines.filter s.lineInUse
  if used = [] then none
  else if i[1] ≠ s.config.word 1 then some ⟨1, 4, i[1]⟩
  else if lowByte i[2] ≠ s.config.syncCode then some ⟨2, 4, i[2]⟩
  else if i[8] ≠ s.config.word 8 then some ⟨8, 4, i[8]⟩
  else if used.any fun n => i[0].getLsbD n.val != s.config.enabled n then some ⟨0, 4, i[0]⟩
  else none

/-- The four steps in order, up to the first failure (R171). -/
def State.loadFailure (s : State) (i : Vector Word 12) : Option LoadFailure :=
  (checkFailure i).or ((rangeFailure i).or ((overlapFailure i).or (s.inUseFailure i)))

/-! ### The end of a load (R173, R174) -/

/-- The CONFIG_REJECTED report (R173). -/
def configRejectedReport (f : LoadFailure) (now : Long) : Report :=
  { kind := .configRejected
    time := now
    valueA := longOf (BitVec.ofNat 16 f.word) (BitVec.ofNat 16 f.step)
    valueB := longOf f.found 0 }

/-- The CONFIG_LOADED report (R174). -/
def configLoadedReport (i : Vector Word 12) (now : Long) : Report :=
  { kind := .configLoaded
    time := now
    valueA := longOf i[0] i[10]
    valueB := longOf i[8] i[9] }

/-- A load that failed (R173). -/
def State.rejectLoad (s : State) (f : LoadFailure) : State :=
  let load := LoadState.rejected f.word f.step
  State.operation { s with config := { s.config with load := load, loadImage := none } } .config
    [loadStatePost load, guardPost 0x04 0 .rejected, .hand (configRejectedReport f s.clock), .loadEnded false]

/-- The new image changes the ring's base or size, or places a ring for the first time (R166, R174). -/
def State.ringMoves (s : State) (i : Vector Word 12) : Bool := s.config.image.map ringOf != some (ringOf i)

/-- The old ring extent that a new image leaves in the area map (R3). -/
def State.oldExtent (s : State) (i : Vector Word 12) : Option Ring :=
  if s.ringMoves i then s.config.image.map ringOf else none

/-- A changed sync code at the receiver of a link not OFF (R151): the frame in assembly is dropped and the receiver
hunts, at once and with no report (log 27). -/
def Link.newSync (k : Link) : Link :=
  if k.state = .off then k else { k with receiver := .hunting, huntBits := [], assembly := [] }

/-- The receivers under a new image (R151). -/
def State.resyncLinks (s : State) (i : Vector Word 12) : Vector Link 8 :=
  if lowByte i[2] = s.config.syncCode then s.links else s.links.map Link.newSync

/-- A load that passed (R174). -/
def State.acceptLoad (s : State) (i : Vector Word 12) : State :=
  State.operation
    { s with
      config := { s.config with image := some i, load := .loaded, loadImage := none }
      oldRing := s.oldExtent i
      links := s.resyncLinks i }
    .config
    [loadStatePost .loaded, guardPost 0x04 0 .done, .hand (configLoadedReport i s.clock), .loadNotice,
      .loadEnded (s.ringMoves i), .notifyLinks]

/-- The Configuration Unit takes the job-complete event of its load (R171). -/
def State.endLoad (s : State) : State :=
  match s.config.loadImage with
  | none => s
  | some i =>
    match s.loadFailure i with
    | some f => s.rejectLoad f
    | none => s.acceptLoad i

/-- LOAD_JOB_COMPLETE (R171 to R174): a job-complete event that was sent is taken. -/
def execLoadJobComplete (s : State) : Host.Outcome State Fault Refusal :=
  .next <|
    if s.busy .config then s
    else
      match s.config.jobDone with
      | 0 => s
      | k + 1 => State.endLoad { s with config := { s.config with jobDone := k } }

end Sys2Proof.Machine
end

