-- ==== Sys2Proof/Machine/LineCommands.lean ====
section
/-! DEFINITION. The line commands as Line Supervisor n takes them (chapter 4, R61 to R70). Each starts from the state in
which the supervisor takes the CONTROL write and ends by asking for the port (R10). -/

namespace Sys2Proof.Machine

/-- The post of COMMAND OUTCOME (R60). -/
def outcomePost (n : LineNo) (code : Byte) (o : LineOutcome) : Act := postLine n 5 (outcomeWord code o)

/-- A command that is declined: its outcome is posted and nothing else changes (R61). -/
def State.decline (s : State) (n : LineNo) (code : Byte) (o : LineOutcome) : State :=
  s.operation (.line n) [outcomePost n code o, .ask]

/-- A command that moves the line: posts of the move, the outcome DONE, requests and report, in the order of R60. -/
def State.commandMove (s : State) (n : LineNo) (code : Byte) (m : Line × List Act × List Act) : State :=
  (s.setLine n m.1).operation (.line n) (m.2.1 ++ [outcomePost n code .done] ++ m.2.2 ++ [.ask])

/-- No command (R61): nothing changes and nothing is posted. -/
def State.lineNoCommand (s : State) (n : LineNo) : State := s.operation (.line n) [.ask]

/-- The tests of BIND in order (R62); the outcome of the first that fails. -/
def State.bindTest (s : State) (n : LineNo) (arg : Byte) : Option LineOutcome :=
  if (s.line n).state ≠ .vacant then some .refusedState
  else if !s.config.enabled n then some .lineDisabled
  else if s.config.load = .loading then some .loading
  else if s.tableBase = none then some .noTable
  else if 64 ≤ arg.toNat then some .stageRange
  else if s.bindingOf (Fin.ofNat 64 arg.toNat) ≠ none then some .stageBusy
  else none

/-- The Binding Table grants CLAIM (n, stage) (R44). -/
def State.claim (s : State) (n : LineNo) (stage : StageNo) : State := s.setBinding stage (some ⟨n, .binding⟩)

/-- CLEAR (n, stage) (R47): an entry that does not hold the line is unchanged. -/
def State.clearBinding (s : State) (n : LineNo) (stage : Option StageNo) : State :=
  match stage with
  | none => s
  | some st =>
    match s.bindingOf st with
    | some b => if b.line = n then s.setBinding st none else s
    | none => s

/-- BIND (R62, R63). -/
def State.lineBind (s : State) (n : LineNo) (arg : Byte) : State :=
  match s.bindTest n arg with
  | some o => s.decline n 0x01 o
  | none =>
    let stage : StageNo := Fin.ofNat 64 arg.toNat
    let l := (s.line n).enterBinding stage
    let s' := (s.claim n stage).setLine n l
    State.operation { s' with jobs := s'.jobs ++ [.bindCopy n stage l.copyTag 0] } (.line n)
      (statePosts n l ++ [outcomePost n 0x01 .inProgress, .ask])

/-- The tests of START and RESUME in order (R64, R66). -/
def State.startTest (s : State) (n : LineNo) (from_ : LineState) : Option LineOutcome :=
  if (s.line n).state ≠ from_ then some .refusedState
  else if (s.line n).linkCopy ≠ .up then some .linkNotUp
  else if s.alert.plantStop ≠ none then some .plantStopped
  else if localStop (s.line n).flags then some .localStopSet
  else none

/-- START (R64). -/
def State.lineStart (s : State) (n : LineNo) : State :=
  match s.startTest n .bound with
  | some o => s.decline n 0x02 o
  | none =>
    let l := (s.line n).enterInjecting
    s.commandMove n 0x02 (l, postLine n 15 l.admitted :: statePosts n l, [.request n .mix, .request n .setpoint])

/-- HOLD (R65). -/
def State.lineHold (s : State) (n : LineNo) : State :=
  if (s.line n).state.flowing then
    let l := (s.line n).enterHolding .host
    s.commandMove n 0x03
      (l, [postLine n 15 l.admitted] ++ dwellPosts n (s.line n).state ++ statePosts n l, [.request n .setpoint])
  else s.decline n 0x03 .refusedState

/-- RESUME (R66): the volume limits are examined before the line injects again. -/
def State.lineResume (s : State) (n : LineNo) : State :=
  match s.startTest n .holding with
  | some o => s.decline n 0x04 o
  | none =>
    let l := s.line n
    if l.vmax ≤ l.take then s.commandMove n 0x04 (endMove n l .volumeCap s.clock)
    else if l.intensityCeiling < l.refusalPressure then s.commandMove n 0x04 (endMove n l .intensity s.clock)
    else
      let l' := l.enterInjecting
      s.commandMove n 0x04 (l', postLine n 15 l'.admitted :: statePosts n l', [.request n .setpoint])

/-- END (R67). -/
def State.lineEnd (s : State) (n : LineNo) : State :=
  let l := s.line n
  if l.state.flowing || l.state.idleBound then s.commandMove n 0x05 (endMove n l .hostEnd s.clock)
  else s.decline n 0x05 .refusedState

/-- The job is line n's copy. -/
def Job.copies (n : LineNo) : Job → Bool
  | .bindCopy m _ _ _ => m == n
  | .load _ => false

/-- The reader's list without line n's copy job (R33). -/
def withoutCopy (jobs : List Job) (n : LineNo) : List Job := jobs.filter fun j => !j.copies n

/-- The withdrawal of line n's copy job (R33): a job at the head with a read under way stays until that read ends, and
its word is not delivered; any other job of the line leaves the list. -/
def State.withdraw (s : State) (n : LineNo) : State :=
  match s.port, s.jobs with
  | .reading word _, j :: rest =>
    if j.copies n then { s with port := .reading word true, jobs := j :: withoutCopy rest n }
    else { s with jobs := withoutCopy s.jobs n }
  | _, jobs => { s with jobs := withoutCopy jobs n }

/-- RELEASE is accepted in these states (R68). -/
def LineState.releasable (st : LineState) : Bool :=
  st == .binding || st == .bound || st == .ended || st == .tripped

/-- A RELEASE of an ended or tripped line waits while the STOP its end requested is not yet taken: R87 has the STOP empty
PENDING before RELEASE can make the copy absent (log 38). -/
def State.releaseWaits (s : State) (n : LineNo) (code : Byte) : Bool :=
  code == 0x06 && ((s.line n).state == .ended || (s.line n).state == .tripped) &&
  (s.link n).arrivals.any fun a => a.input == .stop

/-- RELEASE (R68, R57): a copy in flight is withdrawn, the stage cleared, and the line returns to VACANT. -/
def State.lineRelease (s : State) (n : LineNo) : State :=
  let l := s.line n
  if l.state.releasable then
    let s' := State.clearBinding (if l.state = .binding then s.withdraw n else s) n l.stage
    let l' := l.enterVacant .clear
    s'.commandMove n 0x06 (l', statePosts n l', [])
  else s.decline n 0x06 .refusedState

/-- RESYNC (R69): the receiver restart is asked of the controller. -/
def State.lineResync (s : State) (n : LineNo) : State :=
  if s.config.enabled n then s.operation (.line n) [.restart n, outcomePost n 0x07 .done, .ask]
  else s.decline n 0x07 .lineDisabled

/-- REARM_FLAGS (R70): the reopening of the latch is asked of the controller. -/
def State.lineRearm (s : State) (n : LineNo) : State :=
  if s.config.enabled n then s.operation (.line n) [.rearm n, outcomePost n 0x08 .done, .ask]
  else s.decline n 0x08 .lineDisabled

/-- The supervisor takes a CONTROL write and decodes its code (R61). -/
def State.lineControl (s : State) (n : LineNo) (code arg : Byte) : State :=
  if code = 0x00 then s.lineNoCommand n
  else if code = 0x01 then s.lineBind n arg
  else if code = 0x02 then s.lineStart n
  else if code = 0x03 then s.lineHold n
  else if code = 0x04 then s.lineResume n
  else if code = 0x05 then s.lineEnd n
  else if code = 0x06 then s.lineRelease n
  else if code = 0x07 then s.lineResync n
  else if code = 0x08 then s.lineRearm n
  else s.decline n code .unknown

end Sys2Proof.Machine
end

