-- ==== Sys2Proof/Machine/Validation.lean ====
section
/-! DEFINITION. Validation of a stage copy (R36 to R40). -/

namespace Sys2Proof.Machine

/-- Word k of a copy as a number. -/
def copyNat (words : Vector Word 38) (k : Nat) : Nat := (words.toList.getD k 0).toNat

/-- A value lies in a range. -/
def inRange (low high v : Nat) : Bool := low ≤ v && v ≤ high

/-- Word k of 19 to 22 passes as a neighbour entry, or is beyond the count (R37). -/
def neighbourOk (stage : StageNo) (v : Nat → Nat) (k : Nat) : Bool :=
  v 18 < k - 18 ||
  (v k < 64 && v k != stage.val && ((List.range 4).all fun j => k ≤ 19 + j || v (19 + j) != v k))

/-- Word k of 24 to 35 passes as a mix entry, or is beyond the count (R38). -/
def mixOk (v : Nat → Nat) (k : Nat) : Bool :=
  v 23 ≤ (k - 24) / 2 || (if k % 2 = 0 then inRange 1 254 (v k % 256) else inRange 1 5000 (v k))

/-- Word k of a copy passes its condition (R36, R37, R38). Imax is tested at word 10, the stage length at word 2. -/
def fieldOk (stage : StageNo) (v : Nat → Nat) (k : Nat) : Bool :=
  if k = 2 then v 1 < v 2 && v 2 ≤ v 1 + 300
  else if k = 3 then inRange 50 20000 (v 3)
  else if k = 4 then inRange 0 2000 (v 4)
  else if k = 5 then inRange 10 (v 3) (v 5)
  else if k = 6 then inRange 1 600 (v 6)
  else if k = 7 then inRange 10 3600 (v 7)
  else if k = 8 then inRange 10 6000 (v 8) && v 6 ≤ v 8
  else if k = 9 then inRange 1 1000 (v 9)
  else if k = 10 then inRange 1 4000000 (v 10 + 65536 * v 11)
  else if k = 12 then inRange 1 5000 (v 12)
  else if k = 13 then inRange 5 90 (v 13)
  else if k = 14 then inRange 5 500 (v 14)
  else if k = 15 then inRange 1 5000 (v 15)
  else if k = 16 then inRange 10 5000 (v 16)
  else if k = 17 then inRange 1 60000 (v 17)
  else if k = 18 then inRange 0 4 (v 18)
  else if 19 ≤ k ∧ k ≤ 22 then neighbourOk stage v k
  else if k = 23 then inRange 1 6 (v 23)
  else if 24 ≤ k ∧ k ≤ 35 then mixOk v k
  else if k = 36 then v 36 ≤ 7
  else if k = 37 then inRange 0 60 (v 37)
  else true

/-- A FAILED outcome (R40): the reason, the word number and the value found. -/
structure CopyFailure where
  reason : LeaveReason
  word : Nat
  found : Long
  deriving DecidableEq, Repr

/-- The value found at a failing word (R40): the 32-bit Imax at word 10. -/
def foundAt (words : Vector Word 38) (k : Nat) : Long :=
  if k = 10 then longOf words[10] words[11] else (words.toList.getD k 0).setWidth 32

/-- The check sum of a copy (R39). -/
def Filling.sum (f : Filling) : Word := checkSum (f.words.toList ++ [f.check])

/-- Validation (R40): none where it is PASSED. -/
def validateCopy (stage : StageNo) (f : Filling) : Option CopyFailure :=
  if f.sum ≠ 0 then some ⟨.recordCheck, 47, f.sum.setWidth 32⟩
  else
    ((List.range 38).find? fun k => !fieldOk stage (copyNat f.words) k).map
      fun k => ⟨.recordField, k, foundAt f.words k⟩

end Sys2Proof.Machine
end

