-- ==== Sys2Proof/Machine/LineEvents.lean ====
section
/-! DEFINITION. The events a Line Supervisor takes beside the host's writes (R72, R73, R79, R94, R105, R117 to R123,
R128), and the Communication Monitor (R126, R127). A supervisor takes none while it has an operation in flight
(R51). -/

namespace Sys2Proof.Machine

/-- The supervisor takes an event that moves its line: posts, then requests and report. -/
def State.takeMove (s : State) (n : LineNo) (m : Line × List Act × List Act) : State :=
  (s.setLine n m.1).operation (.line n) (m.2.1 ++ m.2.2)

/-! ### The end of a BIND copy (R72, R73) -/

/-- CONFIRM (n, stage) (R46). -/
def State.confirm (s : State) (n : LineNo) (stage : StageNo) : State :=
  if s.bindingOf stage = some ⟨n, .binding⟩ then s.setBinding stage (some ⟨n, .bound⟩) else s

/-- The BIND_DONE report (R72). -/
def bindDoneReport (n : LineNo) (l : Line) (check : Word) (now : Long) : Report :=
  { kind := .bindDone
    line := lineByte n
    stage := stageByte l.stage
    time := now
    valueA := longOf (l.stageWord 0) (BitVec.ofNat 16 l.length)
    valueB := longOf check 0 }

/-- The BIND_FAILED report (R41). -/
def bindFailedReport (n : LineNo) (stage : StageNo) (f : CopyFailure) (now : Long) : Report :=
  { kind := .bindFailed
    line := lineByte n
    stage := stageByte (some stage)
    time := now
    valueA := longOf (BitVec.ofNat 16 f.word) (f.reason.code.setWidth 16)
    valueB := f.found }

/-- Validation has passed (R72). -/
def State.bindPassed (s : State) (n : LineNo) (stage : StageNo) (f : Filling) : State :=
  let l := (s.line n).enterBound f.words
  ((s.confirm n stage).setLine n l).operation (.line n)
    (statePosts n l ++ [.hand (bindDoneReport n l f.check s.clock)])

/-- Validation has failed (R73). -/
def State.bindFailed (s : State) (n : LineNo) (stage : StageNo) (f : CopyFailure) : State :=
  let l := (s.line n).enterVacant f.reason
  ((s.clearBinding n (some stage)).setLine n l).operation (.line n)
    (statePosts n l ++ [.hand (bindFailedReport n stage f s.clock)])

/-- The supervisor acts on a job-complete event with this tag, or discards it (R72). -/
def State.endBind (s : State) (n : LineNo) (tag : Byte) : State :=
  let l := s.line n
  if l.state = .binding ∧ tag = l.copyTag then
    match l.stage, l.filling with
    | some stage, some f =>
      match validateCopy stage f with
      | none => s.bindPassed n stage f
      | some e => s.bindFailed n stage e
    | _, _ => s
  else s

/-- BIND_COPY_COMPLETE (R72): the oldest job-complete event sent to line n. -/
def execBindCopyComplete (n : LineNo) (s : State) : Host.Outcome State Fault Refusal :=
  .next <|
    let l := s.line n
    if s.busy (.line n) then s
    else
      match l.mail.jobDone with
      | [] => s
      | tag :: rest => State.endBind (s.setLine n { l with mail := { l.mail with jobDone := rest } }) n tag

/-! ### Samples (R94, R95) -/

/-- The OVERRUN report made when a sample is taken (R137), and the overrun cleared. -/
def State.reportOverrun (s : State) (n : LineNo) : State :=
  match (s.link n).overrun with
  | none => s
  | some c =>
    (s.setLink n { s.link n with overrun := none }).handLink n .linkError 4 (longOf (c.setWidth 16) 0) 0

/-- The supervisor handles a sample (R94): a duplicate has no effect (R95). -/
def State.handleSample (s : State) (n : LineNo) (x : Sample) : State :=
  let l := s.line n
  if l.lastSampleSeq = some x.seq then s
  else
    let r := meterStep n { l with lastSampleSeq := some x.seq, flags := x.flags.setWidth 4 } x
    (s.setLine n r.1).operation (.line n) (r.2 ++ measurementPosts n r.1 x) (some (.sampleChecks n x))

/-- A receiver restart that line n has asked for is outstanding: the frames in the FIFO are discarded (R69, log 14). -/
def Link.restartAsked (k : Link) : Bool := k.arrivals.any fun a => a.input == .restart

/-- SAMPLE (R94): the oldest sample in the receive FIFO. -/
def execSample (n : LineNo) (s : State) : Host.Outcome State Fault Refusal :=
  .next <|
    let k := s.link n
    if s.busy (.line n) || k.restartAsked then s
    else
      match k.fifo with
      | [] => s
      | x :: rest => State.handleSample (State.reportOverrun (s.setLink n { k with fifo := rest }) n) n x

/-! ### Timers of the line (R79, R105, R123) -/

/-- The line after step 1 of a ramp expiry (R79): the expiry is taken and the admitted flow raised. -/
def Line.rampUp (l : Line) : Line :=
  { l with
    admitted := BitVec.ofNat 16 (min (l.admitted.toNat + l.rampStep.toNat) l.flowTarget.toNat)
    ramp := .stopped }

/-- RAMP_EXPIRY (R79): the post, the request and the restart of the timer follow in this order. -/
def execRampExpiry (n : LineNo) (s : State) : Host.Outcome State Fault Refusal :=
  .next <|
    let l := s.line n
    if s.busy (.line n) || !l.ramp.due || !l.state.flowing then s
    else s.takeMove n (l.rampUp, [postLine n 15 l.rampUp.admitted], [.request n .setpoint, .restartRamp n])

/-- DWELL_EXPIRY (R105). -/
def execDwellExpiry (n : LineNo) (s : State) : Host.Outcome State Fault Refusal :=
  .next <|
    let l := s.line n
    if s.busy (.line n) || !l.dwell.due || l.state != .closing then s
    else s.takeMove n (endMove n l .refusal s.clock)

/-- SETTLE_EXPIRY (R123). -/
def execSettleExpiry (n : LineNo) (s : State) : Host.Outcome State Fault Refusal :=
  .next <|
    let l := s.line n
    if s.busy (.line n) || !l.settle.due || !l.state.idleBound then s
    else s.setLine n { l with settle := .stopped }

/-! ### Events of the Field Link Controller (R117, R118, R121) -/

/-- The line after it takes a link state change (R117). -/
def Line.takeLinkState (l : Line) (to_ : LinkState) : Line :=
  if to_ = .off then { l with linkCopy := to_, lastSampleSeq := none, flags := 0 } else { l with linkCopy := to_ }

/-- The supervisor takes a link state change (R117). -/
def State.takeLinkState (s : State) (n : LineNo) (to_ : LinkState) : State :=
  let l := (s.line n).takeLinkState to_
  if to_ = .lost ∧ l.state.flowing then s.takeMove n (eventTrip n l .linkLost s.clock) else s.setLine n l

/-- LINK_STATE_CHANGE (R117): the oldest event of the controller, a change of link state. -/
def execLinkStateChange (n : LineNo) (s : State) : Host.Outcome State Fault Refusal :=
  .next <|
    let l := s.line n
    if s.busy (.line n) then s
    else
      match l.mail.linkEvents with
      | .stateChange to_ :: rest =>
        State.takeLinkState (s.setLine n { l with mail := { l.mail with linkEvents := rest } }) n to_
      | _ => s

/-- The supervisor takes an unanswered command with its count (R118). -/
def State.takeUnanswered (s : State) (n : LineNo) (count : Byte) : State :=
  let l := s.line n
  if 2 ≤ count.toNat ∧ l.state.flowing then s.takeMove n (eventTrip n l .commandLost s.clock) else s

/-- UNANSWERED_COMMAND (R118): the oldest event of the controller, an unanswered command. -/
def execUnansweredCommand (n : LineNo) (s : State) : Host.Outcome State Fault Refusal :=
  .next <|
    let l := s.line n
    if s.busy (.line n) then s
    else
      match l.mail.linkEvents with
      | .unanswered count :: rest =>
        State.takeUnanswered (s.setLine n { l with mail := { l.mail with linkEvents := rest } }) n count
      | _ => s

/-- The supervisor takes a REFUSED_LOCAL outcome with the echoed sequence (R121, R122). -/
def State.takeRefusedLocal (s : State) (n : LineNo) (echo : Byte) : State :=
  let l := s.line n
  if l.state.flowing then
    s.takeMove n
      (holdMove n l .localStop s.clock (longOf (echo.setWidth 16) 0) (longOf (l.flags.setWidth 16) 1))
  else s

/-- REFUSED_LOCAL (R121): the oldest event of the controller, a REFUSED_LOCAL outcome. -/
def execRefusedLocal (n : LineNo) (s : State) : Host.Outcome State Fault Refusal :=
  .next <|
    let l := s.line n
    if s.busy (.line n) then s
    else
      match l.mail.linkEvents with
      | .refusedLocal echo :: rest =>
        State.takeRefusedLocal (s.setLine n { l with mail := { l.mail with linkEvents := rest } }) n echo
      | _ => s

/-! ### Plant stop (R119) -/

/-- The trip cause of a plant stop event (R119): the event carries ACK_TIMEOUT or STOP_ALL. -/
def plantTrip : PlantCause → Option TripCause
  | .reset => none
  | .stopAll => some .stopAll
  | .ackTimeout => some .ackTimeout

/-- The supervisor takes a plant stop event (R119). -/
def State.takePlantStop (s : State) (n : LineNo) (cause : PlantCause) : State :=
  let l := s.line n
  match plantTrip cause with
  | none => s
  | some c => if l.state.flowing then s.takeMove n (eventTrip n l c s.clock) else s

/-- PLANT_STOP_EVENT (R119): an event of this cause that was sent. -/
def execPlantStopEvent (n : LineNo) (cause : PlantCause) (s : State) : Host.Outcome State Fault Refusal :=
  .next <|
    let l := s.line n
    if s.busy (.line n) then s
    else
      match extractFirst (fun c => c == cause) l.mail.plantStops with
      | none => s
      | some (_, rest) =>
        State.takePlantStop (s.setLine n { l with mail := { l.mail with plantStops := rest } }) n cause

/-! ### Communication (R126 to R128) -/

/-- The observing line in the low byte and its stage in the high byte; then 0 for a rise, 1 for a return. -/
def Observation.value (o : Observation) : Long :=
  longOf (wordOf (stageByte (some o.stage)) (lineByte o.line)) (if o.isReturn then 1 else 0)

/-- The supervisor takes a hold demand (R128, R122). -/
def State.takeDemand (s : State) (n : LineNo) (o : Observation) : State :=
  let l := s.line n
  if l.state.flowing then
    s.takeMove n (holdMove n l .communication s.clock o.value (longOf (l.flags.setWidth 16) 2))
  else s

/-- HOLD_DEMAND (R128): the oldest demand sent to line n. -/
def execHoldDemand (n : LineNo) (s : State) : Host.Outcome State Fault Refusal :=
  .next <|
    let l := s.line n
    if s.busy (.line n) then s
    else
      match l.mail.demands with
      | [] => s
      | o :: rest => State.takeDemand (s.setLine n { l with mail := { l.mail with demands := rest } }) n o

/-- Line X qualifies for a demand of an observation at a stage (R126). -/
def Line.qualifies (l : Line) (stage : StageNo) : Bool := l.state.flowing && l.commCheck && l.listsNeighbour stage

/-- The COMMUNICATION report (R127). -/
def communicationReport (x : LineNo) (l : Line) (o : Observation) (now : Long) : Report :=
  { kind := .communication
    line := lineByte x
    stage := stageByte l.stage
    time := now
    valueA := o.value
    valueB := longOf o.pressure o.baseline }

/-- The monitor's report and demand for line X, where it qualifies (R126). -/
def State.demandOf (s : State) (o : Observation) (x : LineNo) : State :=
  let l := s.line x
  if l.qualifies o.stage then
    (s.hand (communicationReport x l o s.clock)).setLine x
      { l with mail := { l.mail with demands := l.mail.demands ++ [o] } }
  else s

/-- The Communication Monitor takes an observation (R126): every line, in ascending number, each judged by its context
as it now stands, the observing line like any other (log 41). -/
def State.takeObservation (s : State) (o : Observation) : State := allLines.foldl (fun t x => t.demandOf o x) s

/-- The oldest observation of line n, where it is of this kind (R126). That a line's observations come to the monitor in the
order in which it made them is the model's choice (log 40). -/
def State.observed (s : State) (n : LineNo) (isReturn : Bool) : State :=
  match extractFirst (fun o => o.line == n) s.observations with
  | none => s
  | some (o, rest) => if o.isReturn = isReturn then State.takeObservation { s with observations := rest } o else s

/-- RISE_OBSERVED (R126). -/
def execRiseObserved (n : LineNo) (s : State) : Host.Outcome State Fault Refusal := .next (s.observed n false)

/-- RETURN_OBSERVED (R126). -/
def execReturnObserved (n : LineNo) (s : State) : Host.Outcome State Fault Refusal := .next (s.observed n true)

end Sys2Proof.Machine
end

