-- ==== Sys2Proof/Machine/Receiver.lean ====
section
/-! DEFINITION. The parts of Field Link Controller n driven by the uplink: the clock watch (R133), the receiver (R134 to
R136) and the receive FIFO (R137). They go on while a post of the controller waits (R152). -/

namespace Sys2Proof.Machine

/-! ### The clock watch (R133) -/

/-- The receiver hunts with an empty search and no frame in assembly (R133 to R138). -/
def Link.hunt (k : Link) : Link := { k with receiver := .hunting, huntBits := [], assembly := [] }

/-- The clock watch takes the expiry of its timer (R133): the report carries the time of the expiry. -/
def State.takeClockMissing (s : State) (n : LineNo) (expiry : Long) : State :=
  State.useFree <|
    (s.setLink n { (s.link n).hunt with watch := .missing, watchTimer := .stopped, watchExpiry := none }).hand
      { s.linkReport n .linkError 1 0 0 with time := expiry }

/-- CLOCK_MISSING (R133): the watch timer has expired in PRESENT. -/
def execClockMissing (n : LineNo) (s : State) : Host.Outcome State Fault Refusal :=
  .next <|
    match (s.link n).watch, (s.link n).watchExpiry with
    | .present, some expiry => s.takeClockMissing n expiry
    | _, _ => s

/-- UPLINK_CLOCK_EDGE (R133): an edge restarts the watch timer, and ends MISSING. An expiry not yet taken is not detected. -/
def execUplinkClockEdge (n : LineNo) (s : State) : Host.Outcome State Fault Refusal :=
  .next <|
    let k := s.link n
    if k.watch = .stopped then s
    else s.setLink n { k with watch := .present, watchTimer := .running Config.clockWatchPeriod, watchExpiry := none }

/-! ### HUNTING and SYNC1 (R134) -/

/-- The last eight bits taken, with one more. -/
def huntPush (bits : List Bool) (b : Bool) : List Bool := (bits ++ [b]).drop (bits.length + 1 - 8)

/-- A bit taken in HUNTING (R134). -/
def Link.takeBit (k : Link) (sync : Byte) (b : Bool) : Link :=
  let bits := huntPush k.huntBits b
  if bits = charBits sync then { k with receiver := .sync1, huntBits := [] } else { k with huntBits := bits }

/-- SYNC_FOUND (R134): a bit taken in HUNTING; the one that completes the sync code takes the receiver to SYNC1. -/
def execSyncFound (n : LineNo) (bit : Bool) (s : State) : Host.Outcome State Fault Refusal :=
  .next <|
    let k := s.link n
    if k.receiver = .hunting ∧ k.watch = .present then s.setLink n (k.takeBit s.config.syncCode bit) else s

/-- A character taken in SYNC1 (R134): the bits of one that is not the sync code are looked at again. -/
def Link.takeSync1 (k : Link) (sync c : Byte) : Link :=
  if c = sync then { k with receiver := .between } else { k with receiver := .hunting, huntBits := charBits c }

/-- SYNC1_CHARACTER (R134). -/
def execSync1Character (n : LineNo) (c : Byte) (s : State) : Host.Outcome State Fault Refusal :=
  .next <|
    let k := s.link n
    if k.receiver = .sync1 then s.setLink n (k.takeSync1 s.config.syncCode c) else s

/-! ### BETWEEN (R135) -/

/-- A character taken in BETWEEN (R135). -/
def State.takeBetween (s : State) (n : LineNo) (c : Byte) : State :=
  let k := s.link n
  if k.receiver ≠ .between then s
  else if c = s.config.syncCode then s
  else if c = sampleKind ∨ c = answerKind then s.setLink n { k with receiver := .frame, assembly := [c] }
  else (s.setLink n k.hunt).handLink n .linkError 2 (longOf (c.setWidth 16) 0) 0

/-- FRAME_START (R135): the sync code is stripped, an uplink kind code starts a frame. -/
def execFrameStart (n : LineNo) (c : Byte) (s : State) : Host.Outcome State Fault Refusal := .next (s.takeBetween n c)

/-- FRAMING_ERROR (R135): any other character. -/
def execFramingError (n : LineNo) (c : Byte) (s : State) : Host.Outcome State Fault Refusal := .next (s.takeBetween n c)

/-! ### FRAME (R136) and the FIFO (R137) -/

/-- A delivered SAMPLE enters the FIFO (R137): in a full one it replaces the tail and overrun is set or counts on. -/
def Link.enqueue (k : Link) (x : Sample) : Link :=
  if k.fifo.length < Config.fifoCapacity then { k with fifo := k.fifo ++ [x] }
  else
    { k with
      fifo := k.fifo.dropLast ++ [x]
      overrun := match k.overrun with
        | none => some 1
        | some c => some (if c = 255 then 255 else c + 1) }

/-- A bad frame is dropped (R136): the receiver hunts, and the CRC report is handed over. -/
def State.badFrame (s : State) (n : LineNo) (frame : List Byte) : State :=
  (s.setLink n (s.link n).hunt).handLink n .linkError 3
    (longOf (wordOf (frame.getD 1 0) (frame.getD 0 0)) 0) (longOf (receivedCrc frame) (computedCrc frame))

/-- The receiver between two frames. -/
def Link.between (k : Link) : Link := { k with receiver := .between, assembly := [] }

/-- A good SAMPLE is delivered to the FIFO, and to the link state and the flag latch (R136). -/
def State.deliverSample (s : State) (n : LineNo) (x : Sample) : State :=
  (s.setLink n ((s.link n).between.enqueue x)).arrive n (.judge x)

/-- A good ANSWER is handed to the transmitter (R136). -/
def State.deliverAnswer (s : State) (n : LineNo) (echo outcome : Byte) : State :=
  (s.setLink n (s.link n).between).arrive n (.answer echo outcome)

/-- The frame in assembly is of a kind (R136). -/
def Link.assembling (k : Link) (kind : Byte) : Bool := k.receiver == .frame && k.assembly.head? == some kind

/-- SAMPLE_FRAME (R136): a character of a SAMPLE frame; the 13th completes it. -/
def execSampleFrame (n : LineNo) (c : Byte) (s : State) : Host.Outcome State Fault Refusal :=
  .next <|
    let k := s.link n
    let frame := k.assembly ++ [c]
    if !k.assembling sampleKind then s
    else if frame.length < 13 then s.setLink n { k with assembly := frame }
    else if receivedCrc frame = computedCrc frame then s.deliverSample n (sampleOf frame s.clock)
    else s.badFrame n frame

/-- ANSWER_FRAME (R136): a character of an ANSWER frame; the 6th completes it. -/
def execAnswerFrame (n : LineNo) (c : Byte) (s : State) : Host.Outcome State Fault Refusal :=
  .next <|
    let k := s.link n
    let frame := k.assembly ++ [c]
    if !k.assembling answerKind then s
    else if frame.length < 6 then s.setLink n { k with assembly := frame }
    else if receivedCrc frame = computedCrc frame then s.deliverAnswer n (frame.getD 2 0) (frame.getD 3 0)
    else s.badFrame n frame

end Sys2Proof.Machine
end

