-- ==== Sys2Proof/Machine/LinkEvents.lean ====
section
/-! DEFINITION. The link state, the flag latch and the transmitter of Field Link Controller n (R138 to R150). The
controller takes none of these events while it has an operation in flight, but for the end of a frame on its wire
(R152). -/

namespace Sys2Proof.Machine

/-- The controller takes the next event of a source, if its turn has come. `take` gives the state and the acts of the
operation, and what it goes on to. Its own waiting events follow. -/
def State.takeInput (s : State) (n : LineNo) (src : InputSource)
    (take : State → State × List Act × Option Cont) : State :=
  if s.busy (.link n) then s
  else
    match (s.link n).nextInput src with
    | none => s
    | some (_, rest) =>
      let r := take (s.setLink n { s.link n with arrivals := rest })
      r.1.operation (.link n) r.2.1 r.2.2

/-- Acts of an operation that goes on to nothing. -/
def ends (s : State) (acts : List Act) : State × List Act × Option Cont := (s, acts, none)

/-- The post of LINK STATE (R148). -/
def linkStatePost (n : LineNo) (k : Link) : Act := postLine n 20 (linkStateWord k)

/-- The post of LATCHED FLAGS (R149). -/
def latchPost (n : LineNo) (k : Link) : Act := postLine n 21 (latchedFlagsWord k)

/-! ### The judgement of a SAMPLE (R146, R149) -/

/-- The link after a valid SAMPLE (R146): UP, with the sample timer started. -/
def Link.sampleSeen (k : Link) (x : Sample) (timeout : Word) : Link :=
  { k.discard .sampleExpiry with
    state := .up, sampleTimer := .running timeout.toNat, lastArrival := x.arrival, lastSeq := x.seq }

/-- The link state judges a SAMPLE (R146). The report of a restored link is handed over after the supervisor is told
(log 22). -/
def State.judgeState (s : State) (n : LineNo) (x : Sample) : State × List Act :=
  let k := s.link n
  let k' := k.sampleSeen x (s.config.word 3)
  let s' := s.setLink n k'
  match k.state with
  | .off => (s, [])
  | .up => (s', [])
  | .hunting => (s', [linkStatePost n k', .tell n (.stateChange .up)])
  | .lost =>
    (s'.useFree, [linkStatePost n k', .tell n (.stateChange .up),
      .hand (s.linkReport n .linkRestored 0 x.arrival k.lostAt)])

/-- The flag latch judges a SAMPLE (R149). -/
def State.judgeLatch (s : State) (n : LineNo) (x : Sample) : State × List Act :=
  let k := s.link n
  let flags : BitVec 4 := x.flags.setWidth 4
  let k' := { k with flagsSeen := flags }
  if k.latchOpen ∧ flags ≠ k.latchedFlags then
    let closed := { k' with latchOpen := false, latchedFlags := flags }
    (State.useFree (s.setLink n closed),
      [.hand (s.linkReport n .flags 0 (longOf (flags.setWidth 16) (k.latchedFlags.setWidth 16))
          (longOf (x.seq.setWidth 16) 0)),
        latchPost n closed])
  else (s.setLink n k', [])

/-- The controller judges a SAMPLE at the link state and then at the flag latch (R146, R149). -/
def State.judge (s : State) (n : LineNo) (x : Sample) : State × List Act × Option Cont :=
  if (s.link n).state = .off then ends s []
  else
    let a := s.judgeState n x
    let b := a.1.judgeLatch n x
    ends b.1 (a.2 ++ b.2)

/-- SAMPLE_JUDGED_AT_LINK (R146, R149): the oldest event of the receiver, where it is a SAMPLE. -/
def execSampleJudgedAtLink (n : LineNo) (s : State) : Host.Outcome State Fault Refusal :=
  .next <|
    match (s.link n).nextInput .receiver with
    | some (.judge x, _) => s.takeInput n .receiver fun t => t.judge n x
    | _ => s

/-! ### ANSWER (R142) -/

/-- The unanswered count raised by 1, stopping at 255 (R142, R143). -/
def raised (count : Byte) : Byte := if count = 255 then 255 else count + 1

/-- The post of LINK STATE where the unanswered count has changed (R142). -/
def countPost (n : LineNo) (before after : Link) : List Act :=
  if after.unanswered = before.unanswered then [] else [linkStatePost n after]

/-- The NO_ANSWER report (R143, R142): `source` is 0 for an expiry and 1 for a MALFORMED answer. -/
def State.noAnswerReport (s : State) (n : LineNo) (c : Command) (count : Byte) (source : Word) : Report :=
  s.linkReport n .linkError 5 (longOf (c.seq.setWidth 16) ((FrameKind.command c.kind).code.setWidth 16))
    (longOf (count.setWidth 16) source)

/-- The slot emptied, with a new unanswered count (R142, R143). -/
def Link.endCommand (k : Link) (count : Byte) : Link := { k.stopAnswerTimer with inFlight := none, unanswered := count }

/-- A matching ANSWER (R142). R142 states no order among what it posts, hands over and tells: LAST COMMAND, then LINK
STATE, then the report of MALFORMED, then the word to the supervisor is the model's choice, as R143 orders an expiry
(log 22). -/
def State.takeAnswer (s : State) (n : LineNo) (c : Command) (outcome : Byte) : State × List Act × Option Cont :=
  let k := s.link n
  if outcome = 0 then
    let k' := k.endCommand 0
    (s.setLink n k', lastCommandPost n c.kind c.seq .applied :: countPost n k k', some (.takePending n))
  else if outcome = 1 then
    let k' := k.endCommand 0
    (s.setLink n k',
      lastCommandPost n c.kind c.seq .refusedLocal :: countPost n k k' ++ [.tell n (.refusedLocal c.seq)],
      some (.takePending n))
  else
    let k' := k.endCommand (raised k.unanswered)
    (State.useFree (s.setLink n k'),
      lastCommandPost n c.kind c.seq .malformed :: countPost n k k' ++
        [.hand (s.noAnswerReport n c k'.unanswered 1), .tell n (.unanswered k'.unanswered)],
      some (.takePending n))

/-- The transmitter compares an ANSWER with the slot (R142): one that does not match has no effect. -/
def State.judgeAnswer (s : State) (n : LineNo) (echo outcome : Byte) : State × List Act × Option Cont :=
  match (s.link n).inFlight with
  | some c => if c.awaiting ∧ c.seq = echo then s.takeAnswer n c outcome else ends s []
  | none => ends s []

/-- ANSWER (R142): the oldest event of the receiver, where it is an ANSWER. -/
def execAnswer (n : LineNo) (s : State) : Host.Outcome State Fault Refusal :=
  .next <|
    match (s.link n).nextInput .receiver with
    | some (.answer echo outcome, _) => s.takeInput n .receiver fun t => t.judgeAnswer n echo outcome
    | _ => s

/-! ### Requests of the supervisor (R138, R139, R141, R150) -/

/-- The transmitter takes a request (R139): a kind already in PENDING keeps its place. -/
def State.takeRequest (s : State) (n : LineNo) (r : RequestKind) : State × List Act × Option Cont :=
  let k := s.link n
  if k.state = .off then ends s []
  else
    let s' := if r ∈ k.pending then s else s.setLink n { k with pending := k.pending ++ [r] }
    ends (s'.takePending n).1 (s'.takePending n).2

/-- FRAME_REQUEST (R139): the oldest event of the supervisor, where it is a request. -/
def execFrameRequest (n : LineNo) (s : State) : Host.Outcome State Fault Refusal :=
  .next <|
    match (s.link n).nextInput .supervisor with
    | some (.request r, _) => s.takeInput n .supervisor fun t => t.takeRequest n r
    | _ => s

/-- The transmitter takes a STOP request (R141). A link that is OFF sends none (log 25). -/
def State.takeStopRequest (s : State) (n : LineNo) : State × List Act × Option Cont :=
  let k := s.link n
  if k.state = .off then ends s []
  else if k.stopWaiting then ends (s.setLink n { k with pending := [] }) []
  else
    let s' := s.setLink n { k with pending := [], stopWaiting := true }
    if k.wire = .fill then ends (s'.takeStop n).1 (s'.takeStop n).2 else ends s' []

/-- STOP_REQUEST (R141): the oldest event of the supervisor, where it is a STOP request. -/
def execStopRequest (n : LineNo) (s : State) : Host.Outcome State Fault Refusal :=
  .next <|
    match (s.link n).nextInput .supervisor with
    | some (.stop, _) => s.takeInput n .supervisor fun t => t.takeStopRequest n
    | _ => s

/-- The receiver restart (R138). The receiver of a link that is OFF stays IDLE. -/
def Link.restart (k : Link) : Link :=
  { k with
    fifo := []
    overrun := none
    assembly := []
    huntBits := []
    receiver := if k.state = .off then .idle else .hunting }

/-- RECEIVER_RESTART (R138): the oldest event of the supervisor, where it is a restart. -/
def execReceiverRestart (n : LineNo) (s : State) : Host.Outcome State Fault Refusal :=
  .next <|
    match (s.link n).nextInput .supervisor with
    | some (.restart, _) => s.takeInput n .supervisor fun t => ends (t.setLink n (t.link n).restart) []
    | _ => s

/-- The flag latch takes a rearm (R150). -/
def State.takeRearm (s : State) (n : LineNo) : State × List Act × Option Cont :=
  let k := s.link n
  if k.flagsSeen = k.latchedFlags then
    let k' := { k with latchOpen := true }
    ends (s.setLink n k') [latchPost n k']
  else
    let k' := { k with latchOpen := false, latchedFlags := k.flagsSeen }
    ends (State.useFree (s.setLink n k'))
      [.hand (s.linkReport n .flags 0 (longOf (k.flagsSeen.setWidth 16) (k.latchedFlags.setWidth 16))
          (longOf (k.lastSeq.setWidth 16) 1)),
        latchPost n k']

/-- REARM (R150): the oldest event of the supervisor, where it is a rearm. -/
def execRearm (n : LineNo) (s : State) : Host.Outcome State Fault Refusal :=
  .next <|
    match (s.link n).nextInput .supervisor with
    | some (.rearm, _) => s.takeInput n .supervisor fun t => t.takeRearm n
    | _ => s

/-! ### The end of a frame on the wire (R140, R144) -/

/-- The refresh timer restarts and no refresh is owed (R140, R144). An expiry of it not yet taken is discarded, which is
the model's choice (log 35). -/
def Link.restartRefresh (k : Link) (period : Word) : Link :=
  { k.discard .refreshExpiry with refreshTimer := .running period.toNat, refreshOwed := false }

/-- The command on the wire becomes AWAITING, with the answer timer started (R140). -/
def Link.awaitAnswer (k : Link) (timeout : Word) : Link :=
  { k with
    inFlight := k.inFlight.map fun c => { c with awaiting := true }
    answerTimer := .running timeout.toNat }

/-- The link when the last character of a frame of a kind has been sent (R140, R144, R151). -/
def Link.frameEnded (k : Link) (kind : FrameKind) (c : ConfigUnit) : Link :=
  let k' := { k with wire := .fill, wireRate := c.word 1 }
  match kind with
  | .command .setpoint => (k'.awaitAnswer (c.word 4)).restartRefresh (c.word 5)
  | .command .stop => (k'.awaitAnswer (c.word 4)).restartRefresh (c.word 5)
  | .command .mix => k'.awaitAnswer (c.word 4)
  | .refresh => k'.restartRefresh (c.word 5)

/-- FRAME_SENT (R140): the last character of the frame on the wire is sent, and the wire takes what it may carry next. -/
def execFrameSent (n : LineNo) (s : State) : Host.Outcome State Fault Refusal :=
  .next <|
    match (s.link n).wire with
    | .sending kind _ =>
      State.flush (State.arrive (s.setLink n ((s.link n).frameEnded kind s.config)) n .takeNext) n
    | _ => s

/-! ### The link's timers (R143, R144, R146) -/

/-- The answer timer expires with a frame AWAITING (R143). -/
def State.takeAnswerTimeout (s : State) (n : LineNo) : State × List Act × Option Cont :=
  let k := s.link n
  match k.inFlight with
  | none => ends s []
  | some c =>
    if c.awaiting then
      let k' := k.endCommand (raised k.unanswered)
      (State.useFree (s.setLink n k'),
        [lastCommandPost n c.kind c.seq .unanswered, linkStatePost n k',
          .hand (s.noAnswerReport n c k'.unanswered 0), .tell n (.unanswered k'.unanswered)],
        some (.takePending n))
    else ends s []

/-- ANSWER_TIMEOUT (R143). -/
def execAnswerTimeout (n : LineNo) (s : State) : Host.Outcome State Fault Refusal :=
  .next (s.takeInput n .answerTimer fun t => t.takeAnswerTimeout n)

/-- The refresh timer expires (R144): a REFRESH is sent at once, or is owed. -/
def State.takeRefreshExpiry (s : State) (n : LineNo) : State × List Act × Option Cont :=
  let k := s.link n
  if k.wire = .fill ∧ k.pending = [] ∧ k.stopWaiting = false then ends (s.sendRefresh n) []
  else ends (s.setLink n { k with refreshOwed := true }) []

/-- REFRESH_TIMER_EXPIRY (R144). -/
def execRefreshTimerExpiry (n : LineNo) (s : State) : Host.Outcome State Fault Refusal :=
  .next (s.takeInput n .refreshTimer fun t => t.takeRefreshExpiry n)

/-- The sample timer expires (R146): an UP link goes LOST. The report is handed over after the supervisor is told
(log 22), with the loaded sample timeout (log 19). -/
def State.takeSampleTimeout (s : State) (n : LineNo) : State × List Act × Option Cont :=
  let k := s.link n
  if k.state = .up then
    let k' := { k with state := .lost, lostAt := s.clock }
    ends (State.useFree (s.setLink n k'))
      [linkStatePost n k', .tell n (.stateChange .lost),
        .hand (s.linkReport n .linkLost 0 k.lastArrival (longOf (s.config.word 3) 0))]
  else ends s []

/-- SAMPLE_TIMEOUT (R146). -/
def execSampleTimeout (n : LineNo) (s : State) : Host.Outcome State Fault Refusal :=
  .next (s.takeInput n .sampleTimer fun t => t.takeSampleTimeout n)

end Sys2Proof.Machine
end

