-- ==== Sys2Proof/Machine/Reports.lean ====
section
/-! DEFINITION. The Report Writer (chapter 9, R163 to R166, and the check of a CONSUMER write, R12). -/

namespace Sys2Proof.Machine

/-! ### Taking a report (R163) -/

/-- The list without its newest record that is not a TRIP report; unchanged where every record is one (log 20). -/
def dropNewestOther (l : List Report) : List Report :=
  match extractFirst (fun r => r.kind != .trip) l.reverse with
  | none => l
  | some (_, rest) => rest.reverse

/-- The pending list after a report is taken, and whether a report has been lost (R163). -/
def keepReport (l : List Report) (r : Report) : List Report × Bool :=
  if l.length < Config.pendingReports then (l ++ [r], false)
  else if r.kind = .trip ∧ l.any (fun x => x.kind != .trip) then (dropNewestOther l ++ [r], true)
  else (l, true)

/-- The raise a report makes (R163): of its class, and told apart where it is that of a line's trip (log 39). -/
def Report.raised (r : Report) : Raise := { cls := r.alertClass, ofTrip := r.kind == .trip }

/-- The Report Writer takes a report (R163): the class is raised, and then the list decides. -/
def State.takeReport (s : State) (r : Report) : State :=
  let raised := s.raise r.raised
  let kept := keepReport s.report.pending r
  if kept.2 then
    State.raise { raised with report := { raised.report with pending := kept.1, lost := true } } { cls := .ring }
  else { raised with report := { raised.report with pending := kept.1 } }

/-- REPORT (R163): the oldest report handed over is taken, whatever else the writer is doing. -/
def execReport (s : State) : Host.Outcome State Fault Refusal :=
  .next <|
    match s.report.handed with
    | [] => s
    | r :: rest => State.takeReport { s with report := { s.report with handed := rest } } r

/-! ### Writing a record (R164, R165) -/

/-- The ring has room (R164). -/
def ReportUnit.room (u : ReportUnit) (r : Ring) : Bool := (u.producer + 1) % r.size != u.consumer

/-- The writer may take a record for the ring (R164): no record in flight, no load in flight, no placement waiting. -/
def ReportUnit.ready (u : ReportUnit) : Bool := u.inFlight.isNone && !u.paused && !u.placement

/-- The posts of a record's words (R164). -/
def recordPosts (r : Ring) (index : Nat) (rec : Report) : List Act :=
  let base := r.base + 16 * index
  let at_ (w : Nat) : Addr := BitVec.ofNat 20 (base + 2 * w)
  List.zipWith (fun w v => Act.post ⟨at_ w, v⟩) [0, 1, 2, 3, 4, 5, 6, 7] rec.words

/-- The writer's operation for a record at an index of a ring (R164). -/
def recordActs (r : Ring) (index : Nat) (rec : Report) : List Act :=
  let next := (index + 1) % r.size
  recordPosts r index rec ++
    [.setProducer next, .post ⟨statusAddr 9, BitVec.ofNat 16 next⟩, .recordWritten]

/-- The writer takes the head record for the ring (R164). -/
def State.writeRecord (s : State) (ring : Ring) (rec : Report) (rest : List Report) : State :=
  let marked := { rec with lostBefore := s.report.lost }
  State.operation
    { s with report := { s.report with pending := rest, inFlight := some marked, lost := false } }
    .report (recordActs ring s.report.producer marked)

/-- RING_RECORD_WRITE (R164). -/
def execRingRecordWrite (s : State) : Host.Outcome State Fault Refusal :=
  .next <|
    match s.report.ring, s.report.pending with
    | some ring, rec :: rest =>
      if s.busy .report || !s.report.ready || !s.report.room ring then s else s.writeRecord ring rec rest
    | _, _ => s

/-! ### Ring placement (R166) -/

/-- A CONSUMER write that the writer has admitted waits for its grant (R12, R166). -/
def State.consumerWaits (s : State) : Bool :=
  match s.cycle with
  | .write w => wordAddr w.addr == statusAddr 5
  | _ => false

/-- The insert queue holds an entry inside the old ring extent (R29). -/
def State.oldRingQueued (s : State) : Bool :=
  match s.oldRing with
  | some r => queuedIn s.queue r
  | none => false

/-- The CONFIG_LOADED report of the load has been handed over and not yet taken. -/
def ReportUnit.loadReportWaits (u : ReportUnit) : Bool := u.handed.any fun r => r.kind == .configLoaded

/-- A pending ring placement may be made (R166). Its posts follow the CONFIG_LOADED report into the pending list. -/
def State.mayPlace (s : State) : Bool :=
  s.report.placement && s.report.inFlight.isNone && !s.report.loadReportWaits && !s.consumerWaits && !s.oldRingQueued

/-- The placement (R166, R3): the old extent leaves the area map, both indexes become 0 and both words are posted. -/
def State.placeRing (s : State) : State :=
  State.operation
    { s with
      oldRing := none
      report := { s.report with ring := s.config.image.map ringOf, producer := 0, consumer := 0 } }
    .report [.post ⟨statusAddr 9, 0⟩, .post ⟨statusAddr 5, 0⟩, .placed]

/-- RING_PLACEMENT (R166). -/
def execRingPlacement (s : State) : Host.Outcome State Fault Refusal :=
  .next <| if s.busy .report || !s.mayPlace then s else s.placeRing

/-! ### The check of a CONSUMER write (R12) -/

/-- The Report Writer admits a consumer value (R12). -/
def State.admitsConsumer (s : State) (v : Word) : Bool :=
  match s.report.ring with
  | none => false
  | some ring =>
    !s.report.placement && !queued s.queue (statusAddr 5) && v.toNat < ring.size &&
    modDiff ring.size v.toNat s.report.consumer ≤ modDiff ring.size s.report.producer s.report.consumer

/-- A full write to status word 5 is taken (R12): admitted, it asks for the port; otherwise it is refused outright. -/
def State.takeConsumer (s : State) (w : HostWrite) : State :=
  if s.admitsConsumer w.value then
    { s with cycle := .write w, report := { s.report with consumer := w.value.toNat } }
  else s.refuseOutright w .consumerRange 0xFF

end Sys2Proof.Machine
end

