-- ==== Sys2Proof/Machine/Setpoints.lean ====
section
/-! DEFINITION. The setpoint writes as Line Supervisor n takes them (chapter 5, R76 to R91). Each ends with the
supervisor's answer to the Pass-Through Unit (R11, R76). -/

namespace Sys2Proof.Machine

/-- Setpoints are admitted in BOUND, INJECTING, CLOSING and HOLDING (R77, R82). -/
def LineState.admits (st : LineState) : Bool := st.flowing || st.idleBound

/-- The supervisor's answer (R76). -/
def answerOf (l : Line) (value : Word) (reason : Option RefuseReason) : Act :=
  .answer value reason (stageByte l.stage)

/-- A write answered as refused changes no field (R76). -/
def State.answerRefused (s : State) (n : LineNo) (value : Word) (reason : RefuseReason) : State :=
  s.operation (.line n) [answerOf (s.line n) value (some reason)]

/-- The line after a FLOW TARGET write of target `t` in a state that admits it (R77). -/
def Line.setFlowTarget (l : Line) (t : Word) : Line :=
  let l' := { l with flowTarget := t }
  if l.state.flowing then
    if t < l.admitted then { l' with admitted := t, ramp := .stopped }
    else if t = l.admitted then { l' with ramp := .stopped }
    else { l' with ramp := if l.ramp = .stopped then .running Config.rampPeriod else l.ramp }
  else l'

/-- FLOW TARGET (R77, R78). In ENDED and TRIPPED the target stays, by R78 against a sentence of R52 (log 34). -/
def State.lineFlowTarget (s : State) (n : LineNo) (v : Word) : State :=
  let l := s.line n
  if l.state.admits then
    let t := minWord v l.maxFlow
    let l' := l.setFlowTarget t
    (s.setLine n l').operation (.line n)
      ((if l.state.flowing && t < l.admitted then [postLine n 15 l'.admitted, .request n .setpoint] else []) ++
        [answerOf l' t none])
  else s.answerRefused n 0 .lineState

/-- CEILING REQUEST (R82, R83). The last sent ceiling is compared after the post. -/
def State.lineCeilingRequest (s : State) (n : LineNo) (v : Word) : State :=
  let l := s.line n
  if l.state.admits then
    let request := minWord v l.pmax
    let l' := { l with ceilingRequest := request, effectiveCeiling := Line.effectiveAt request l.intensityCeiling }
    (s.setLine n l').operation (.line n)
      ((if l'.effectiveCeiling = l.effectiveCeiling then [] else [postLine n 14 l'.effectiveCeiling]) ++
        [.requestCeiling n, answerOf l' request none])
  else s.answerRefused n 0 .lineState

/-- A step from the present entry to entry `v` is admitted (R88, second row). -/
def Line.stepAdmitted (l : Line) (v : Word) : Bool :=
  v.toNat == l.mixIndex.toNat + 1 && v.toNat < l.mixCount && (l.stepVolume l.mixIndex).toNat ≤ (l.take - l.takeAtStep).toNat

/-- The line after an admitted step (R88). -/
def Line.stepMix (l : Line) (v : Word) : Line := { l with mixIndex := v, takeAtStep := l.take }

/-- The MIX_STEPPED report (R91). -/
def mixSteppedReport (n : LineNo) (l : Line) (v : Word) (now : Long) : Report :=
  { kind := .mixStepped
    line := lineByte n
    stage := stageByte l.stage
    time := now
    valueA := longOf v ((l.mixCode v).setWidth 16)
    valueB := longOf l.take (l.take - l.takeAtStep) }

/-- MIX REQUEST (R88 to R90). -/
def State.lineMixRequest (s : State) (n : LineNo) (v : Word) : State :=
  let l := s.line n
  if !l.state.admits then s.answerRefused n l.mixIndex .lineState
  else if v = l.mixIndex then s.operation (.line n) [answerOf l l.mixIndex none]
  else if (l.state == .injecting || l.state == .holding) && l.stepAdmitted v then
    (s.setLine n (l.stepMix v)).operation (.line n)
      [.request n .mix, .hand (mixSteppedReport n l v s.clock), answerOf l v none]
  else s.answerRefused n l.mixIndex .mixOrder

/-- The supervisor takes a full write to line word 1, 2 or 3 (R76). -/
def State.lineSetpoint (s : State) (n : LineNo) (word : Nat) (v : Word) : State :=
  if word = 1 then s.lineFlowTarget n v
  else if word = 2 then s.lineCeilingRequest n v
  else s.lineMixRequest n v

end Sys2Proof.Machine
end

