-- ==== Sys2Proof/Machine/PassThrough.lean ====
section
/-! DEFINITION. The Pass-Through Unit takes host cycles (chapter 1), and the commands that are full host writes to a
watched word. A host cycle is presented only while no other is held (R1). -/

namespace Sys2Proof.Machine

/-- A full host write. -/
def fullWrite (a : Addr) (v : Word) : HostWrite := ⟨a, v, .both⟩

/-- A full write to a watched word is presented to the block that owns it (R1, R9, R10, R11). Where the owner cannot take
it yet (`waits`) the write is held; the same command again is the owner's taking of it when it can (log 16). `take` is
what the owner does, from the state in which it takes the write. -/
def State.present (s : State) (w : HostWrite) (waits : Bool) (take : State → State) : State :=
  match s.cycle with
  | .idle => if waits then { s with cycle := .held w } else take { s with cycle := .taken w }
  | .held h => if h = w ∧ waits = false then take { s with cycle := .taken w } else s
  | _ => s

/-! ### Reads (R17) -/

/-- A host read is taken (R17): answered from the insert queue, or it asks for the port. -/
def State.hostRead (s : State) (a : Addr) : State :=
  match queuedData s.queue a with
  | some v => { s with hostData := v }
  | none => { s with cycle := .read a }

/-- HOST_READ (R17). -/
def execHostRead (a : Addr) (s : State) : Host.Outcome State Fault Refusal :=
  .next <|
    match s.cycle with
    | .idle => s.hostRead (wordAddr a)
    | _ => s

/-! ### Watched writes -/

/-- A full write to line word 0 (R10). A busy supervisor takes none, and a RELEASE may wait for its STOP (R87). -/
def State.presentControl (s : State) (n : LineNo) (code arg : Byte) : State :=
  s.present (fullWrite (lineAddr n 0) (wordOf code arg)) (s.busy (.line n) || s.releaseWaits n code) fun t => t.lineControl n code arg

/-- A full write to line word 1, 2 or 3 (R11): the supervisor's answer, and the unit's action on it. -/
def State.presentSetpoint (s : State) (n : LineNo) (word : Nat) (v : Word) : State :=
  s.present (fullWrite (lineAddr n word) v) (s.busy (.line n)) fun t => t.lineSetpoint n word v

/-- A full write to status word 0 (R9): code 04h goes to the Configuration Unit, every other to the Alert
Controller. -/
def State.presentGuard (s : State) (code arg : Byte) : State :=
  if code = 0x04 then s.present (fullWrite (statusAddr 0) (wordOf code arg)) (s.busy .config) State.takeLoadConfig
  else s.present (fullWrite (statusAddr 0) (wordOf code arg)) (s.busy .alert) fun t => t.guardCommand code

/-- A full write to status word 5 (R12): the Report Writer takes it at once. -/
def State.presentConsumer (s : State) (v : Word) : State :=
  match s.cycle with
  | .idle => s.takeConsumer (fullWrite (statusAddr 5) v)
  | _ => s

/-- A full write to a watched word, by the word's class. -/
def State.presentWatched (s : State) (c : WordClass) (v : Word) : State :=
  match c with
  | .below => s
  | .plain => s
  | .partOwned => s
  | .guardCommand => s.presentGuard (highByte v) (lowByte v)
  | .consumer => s.presentConsumer v
  | .control n => s.presentControl n (highByte v) (lowByte v)
  | .setpoint n word => s.presentSetpoint n word v

/-! ### HOST_WRITE (R5, R6, R13) -/

/-- A write that no owner takes is taken by the unit (R1): a plain write and one below the guard block ask for the
port, a part-owned word is refused, and so is one lane of a watched word. -/
def State.takeWrite (s : State) (w : HostWrite) : State :=
  match classify w.addr with
  | .below => { s with cycle := .write w }
  | .plain => { s with cycle := .write w }
  | .partOwned => s.refuseOutright w .partOwned 0xFF
  | _ => s.refuseOutright w .partialWrite 0xFF

/-- The write is a full write to a watched word. -/
def HostWrite.watched (w : HostWrite) : Bool :=
  w.lanes == .both &&
  match classify w.addr with
  | .below => false
  | .plain => false
  | .partOwned => false
  | _ => true

/-- HOST_WRITE (R5, R6, R13). A full write to a watched word is the command of its row. -/
def execHostWrite (a : Addr) (v : Word) (lanes : Lanes) (s : State) : Host.Outcome State Fault Refusal :=
  .next <|
    let w : HostWrite := ⟨wordAddr a, v, lanes⟩
    if w.watched then s.presentWatched (classify w.addr) v
    else
      match s.cycle with
      | .idle => s.takeWrite w
      | _ => s

/-! ### Guard commands (R156, R157, R159, R161, R169) -/

/-- GUARD_NO_COMMAND (R156). -/
def execGuardNoCommand (arg : Byte) (s : State) : Host.Outcome State Fault Refusal := .next (s.presentGuard 0x00 arg)

/-- ACKNOWLEDGE (R157). -/
def execAcknowledge (arg : Byte) (s : State) : Host.Outcome State Fault Refusal := .next (s.presentGuard 0x01 arg)

/-- STOP_ALL (R159). -/
def execStopAll (arg : Byte) (s : State) : Host.Outcome State Fault Refusal := .next (s.presentGuard 0x02 arg)

/-- RELEASE_STOP (R161). -/
def execReleaseStop (arg : Byte) (s : State) : Host.Outcome State Fault Refusal := .next (s.presentGuard 0x03 arg)

/-- LOAD_CONFIG (R169). -/
def execLoadConfig (arg : Byte) (s : State) : Host.Outcome State Fault Refusal := .next (s.presentGuard 0x04 arg)

/-- GUARD_UNKNOWN_COMMAND (R156). -/
def execGuardUnknownCommand (code arg : Byte) (s : State) : Host.Outcome State Fault Refusal :=
  .next (s.presentGuard code arg)

/-- CONSUMER (R12). -/
def execConsumer (v : Word) (s : State) : Host.Outcome State Fault Refusal := .next (s.presentConsumer v)

/-! ### Line commands (R61 to R70) -/

/-- LINE_NO_COMMAND (R61). -/
def execLineNoCommand (n : LineNo) (arg : Byte) (s : State) : Host.Outcome State Fault Refusal :=
  .next (s.presentControl n 0x00 arg)

/-- BIND (R62, R63). -/
def execBind (n : LineNo) (arg : Byte) (s : State) : Host.Outcome State Fault Refusal :=
  .next (s.presentControl n 0x01 arg)

/-- START (R64). -/
def execStart (n : LineNo) (arg : Byte) (s : State) : Host.Outcome State Fault Refusal :=
  .next (s.presentControl n 0x02 arg)

/-- HOLD (R65). -/
def execHold (n : LineNo) (arg : Byte) (s : State) : Host.Outcome State Fault Refusal :=
  .next (s.presentControl n 0x03 arg)

/-- RESUME (R66). -/
def execResume (n : LineNo) (arg : Byte) (s : State) : Host.Outcome State Fault Refusal :=
  .next (s.presentControl n 0x04 arg)

/-- END (R67). -/
def execEndStage (n : LineNo) (arg : Byte) (s : State) : Host.Outcome State Fault Refusal :=
  .next (s.presentControl n 0x05 arg)

/-- RELEASE (R68). -/
def execRelease (n : LineNo) (arg : Byte) (s : State) : Host.Outcome State Fault Refusal :=
  .next (s.presentControl n 0x06 arg)

/-- RESYNC (R69). -/
def execResync (n : LineNo) (arg : Byte) (s : State) : Host.Outcome State Fault Refusal :=
  .next (s.presentControl n 0x07 arg)

/-- REARM_FLAGS (R70). -/
def execRearmFlags (n : LineNo) (arg : Byte) (s : State) : Host.Outcome State Fault Refusal :=
  .next (s.presentControl n 0x08 arg)

/-- LINE_UNKNOWN_COMMAND (R61). -/
def execLineUnknownCommand (n : LineNo) (code arg : Byte) (s : State) : Host.Outcome State Fault Refusal :=
  .next (s.presentControl n code arg)

/-! ### Setpoint writes (R76 to R91) -/

/-- FLOW_TARGET (R77, R78). -/
def execFlowTarget (n : LineNo) (v : Word) (s : State) : Host.Outcome State Fault Refusal :=
  .next (s.presentSetpoint n 1 v)

/-- CEILING_REQUEST (R82, R83). -/
def execCeilingRequest (n : LineNo) (v : Word) (s : State) : Host.Outcome State Fault Refusal :=
  .next (s.presentSetpoint n 2 v)

/-- MIX_REQUEST (R88 to R90). -/
def execMixRequest (n : LineNo) (v : Word) (s : State) : Host.Outcome State Fault Refusal :=
  .next (s.presentSetpoint n 3 v)

end Sys2Proof.Machine
end

