-- ==== Sys2Proof/Machine/Port.lean ====
section
/-! DEFINITION. The RAM port (chapter 2): the arbiter, and what a grant does for each requester. A grant is one whole
step, but that a read of the table reader begins and ends in steps of its own (log 5). -/

namespace Sys2Proof.Machine

/-! ### The arbiter (R20 to R22) -/

/-- A host cycle waits for the port (R20). -/
def State.hostWaits (s : State) : Bool :=
  match s.cycle with
  | .read _ => true
  | .write _ => true
  | _ => false

/-- The table reader waits (R20). -/
def State.readerWaits (s : State) : Bool := !s.jobs.isEmpty

/-- The insert queue waits (R20). -/
def State.queueWaits (s : State) : Bool := !s.queue.isEmpty

/-- The requester that is granted the free port (R21). A run count of 8 with no other requester is not among the
rows of R21 (log 23). -/
def State.granted (s : State) : Option Requester :=
  if s.port ≠ .free then none
  else if s.drain then some .queue
  else if s.hostWaits then
    if s.runCount < Config.hostRunLimit then some .host
    else if s.readerWaits then some .reader
    else if s.queueWaits then some .queue
    else some .host
  else if s.readerWaits then some .reader
  else if s.queueWaits then some .queue
  else none

/-- The run count after a host grant (R22). -/
def State.hostRun (s : State) : Nat := if s.readerWaits || s.queueWaits then s.runCount + 1 else 0

/-! ### The host (R18, R7, R8) -/

/-- A waiting host read is granted (R18). -/
def State.grantRead (s : State) (a : Addr) : State :=
  { s with cycle := .idle, hostData := readWord s.mem a, runCount := s.hostRun }

/-- HOST_READ_GRANT (R18). -/
def execHostReadGrant (s : State) : Host.Outcome State Fault Refusal :=
  .next <|
    match s.cycle with
    | .read a => if s.granted = some .host then s.grantRead a else s
    | _ => s

/-- Why a write is refused at its grant, with the report's stage byte (R7, R8, R48). Only a write below the guard block
is classified at the grant (R1). -/
def State.refusedAtGrant (s : State) (a : Addr) : Option (RefuseReason × Byte) :=
  if classify a ≠ .below then none
  else if s.ringClass a then some (.ringArea, 0xFF)
  else
    match s.stageOf a with
    | none => none
    | some stage => if s.bindingOf stage = none then none else some (.recordBound, stageByte (some stage))

/-- A waiting host write is granted (R5, R7, R8). -/
def State.grantWrite (s : State) (w : HostWrite) : State :=
  match s.refusedAtGrant w.addr with
  | some (reason, stage) => State.refuseOutright { s with runCount := s.hostRun } w reason stage
  | none => { s with cycle := .idle, mem := writeLanes s.mem w.addr w.value w.lanes, runCount := s.hostRun }

/-- HOST_WRITE_GRANT (R7, R8). -/
def execHostWriteGrant (s : State) : Host.Outcome State Fault Refusal :=
  .next <|
    match s.cycle with
    | .write w => if s.granted = some .host then s.grantWrite w else s
    | _ => s

/-! ### The insert queue (R27) -/

/-- The head entry leaves the queue (R27, step 1; R23). -/
def State.popQueue (s : State) (rest : List Post) : State :=
  { s with queue := rest, drain := s.drain && rest.length != Config.drainOffAt, runCount := 0 }

/-- A drain grant (R27). -/
def State.drainHead (s : State) (e : Post) (rest : List Post) : State :=
  let r := State.acceptWaiting s.waiting (s.popQueue rest)
  State.resumeAll { r.1 with mem := writeLanes r.1.mem e.addr e.data .both } r.2

/-- INSERT_QUEUE_DRAIN (R27). -/
def execInsertQueueDrain (s : State) : Host.Outcome State Fault Refusal :=
  .next <|
    match s.queue with
    | [] => s
    | e :: rest => if s.granted = some .queue then s.drainHead e rest else s

/-! ### The table reader (R31, R32) -/

/-- Word w of a stage record is placed in the copy (R35): words 38 to 46 are discarded. -/
def Filling.deliver (f : Filling) (w : Nat) (v : Word) : Filling :=
  if h : w < 38 then { f with words := f.words.set w v }
  else if w = 47 then { f with check := v }
  else f

/-- A word of a BIND copy is delivered to line n (R31). -/
def Line.deliver (l : Line) (w : Nat) (v : Word) : Line := { l with filling := l.filling.map fun f => f.deliver w v }

/-- A word of a load is delivered (R31). -/
def ConfigUnit.deliver (c : ConfigUnit) (w : Nat) (v : Word) : ConfigUnit :=
  { c with loadImage := c.loadImage.map fun i => if h : w < 12 then i.set w v else i }

/-- A line's job-complete event (R32). -/
def Line.jobEnded (l : Line) (tag : Byte) : Line := { l with mail := { l.mail with jobDone := l.mail.jobDone ++ [tag] } }

/-- A word of a BIND copy is delivered and the job counts it; the last ends the job (R31, R32). -/
def State.deliverCopy (s : State) (v : Word) (n : LineNo) (stage : StageNo) (tag : Byte) (k : Nat) (rest : List Job) :
    State :=
  let l := (s.line n).deliver k v
  if k + 1 < 48 then { s.setLine n l with jobs := .bindCopy n stage tag (k + 1) :: rest }
  else { s.setLine n (l.jobEnded tag) with jobs := rest }

/-- A word of a load is delivered and the job counts it; the last ends the job (R31, R32). -/
def State.deliverLoad (s : State) (v : Word) (k : Nat) (rest : List Job) : State :=
  let c := s.config.deliver k v
  if k + 1 < 12 then { s with config := c, jobs := .load (k + 1) :: rest }
  else { s with config := { c with jobDone := c.jobDone + 1 }, jobs := rest }

/-- The word the RAM holds for the head job's next read (R30, R31). -/
def State.nextRead (s : State) : Option Word :=
  match s.jobs, s.tableBase with
  | .bindCopy _ stage _ k :: _, some base => some (readWord s.mem (recordAddr base stage k))
  | .load k :: _, _ => some (readWord s.mem (configAddr k))
  | _, _ => none

/-- The word read is delivered to the head job's owner (R31). -/
def State.deliverWord (s : State) (v : Word) : State :=
  match s.jobs with
  | .bindCopy n stage tag k :: rest => s.deliverCopy v n stage tag k rest
  | .load k :: rest => s.deliverLoad v k rest
  | [] => s

/-- The reader's read ends and the port is free (R20, R31). The word of a withdrawn job is not delivered, and the job
leaves the list (R33). -/
def State.endRead (s : State) (v : Word) (withdrawn : Bool) : State :=
  if withdrawn then { s with port := .free, jobs := s.jobs.tail } else State.deliverWord { s with port := .free } v

/-- The reader is granted the port and its read begins (R20, R22). -/
def State.beginRead (s : State) (v : Word) : State := { s with port := .reading v false, runCount := 0 }

/-- TABLE_READER_GRANT (R20, R31). With the port free the reader is granted it and the next word is read; presented again,
the row is the return of that read, which delivers the word and ends the grant (log 5). -/
def execTableReaderGrant (s : State) : Host.Outcome State Fault Refusal :=
  .next <|
    match s.port, s.nextRead with
    | .reading v withdrawn, _ => s.endRead v withdrawn
    | .free, some v => if s.granted = some .reader then s.beginRead v else s
    | .free, none => s

end Sys2Proof.Machine
end

