-- ==== Sys2Proof/Machine/Reset.lean ====
section
/-! DEFINITION. RESET (R19, R34, R49, R75, R130, R153, R167, R175). -/

namespace Sys2Proof.Machine

/-- The start-up posts of a block (R175). -/
def startUpActs : Block → List Act
  | .passThrough => []
  | .line n => [postLine n 4 (stateWord {})]
  | .link n => [postLine n 20 (linkStateWord {})]
  | .alert =>
    [guardPost 0x00 0 .clear, .post ⟨statusAddr 2, alertPendingWord {}⟩, .post ⟨statusAddr 3, plantStopWord {}⟩]
  | .config => [loadStatePost .unloaded]
  | .report => [.post ⟨statusAddr 9, 0⟩]

/-- The blocks with a start-up post, in the order of `State.reset` (log 7). -/
def startUpBlocks : List Block :=
  [.line 0, .line 1, .line 2, .line 3, .line 4, .line 5, .line 6, .line 7,
   .link 0, .link 1, .link 2, .link 3, .link 4, .link 5, .link 6, .link 7, .alert, .config, .report]

/-- Every block posts once: first those an order names, in that order, then the others. -/
def startUpOrder (order : List Block) : List Block := (order ++ startUpBlocks).eraseDups

/-- RESET (R175): every block takes its reset state; memory is not written (R19), and the model's own fields are kept;
then the start-up posts are made, one block after another in the order of the operand, with no drain, host cycle or other
block's post between those of one block. The order and that no drain comes between them are the model's choice (log 7): R34
leaves open how fast the queue drains meanwhile. -/
def execReset (order : List Block) (s : State) : Host.Outcome State Fault Refusal :=
  .next <|
    (startUpOrder order).foldl (fun t b => t.operate b (startUpActs b) none)
      { State.cleared with pending := s.pending, mem := s.mem, freeCount := s.freeCount }

end Sys2Proof.Machine
end

