-- ==== Sys2Proof/Machine/Dispatch.lean ====
section
/-! DEFINITION. What each command does. -/

namespace Sys2Proof.Machine

def exec (i : Instr) (s : State) : Host.Outcome State Fault Refusal :=
  match i with
  | .reset order => Sys2Proof.Machine.execReset order s
  | .hostRead addr => Sys2Proof.Machine.execHostRead addr s
  | .hostReadGrant => Sys2Proof.Machine.execHostReadGrant s
  | .hostWrite addr value lanes => Sys2Proof.Machine.execHostWrite addr value lanes s
  | .hostWriteGrant => Sys2Proof.Machine.execHostWriteGrant s
  | .insertQueueDrain => Sys2Proof.Machine.execInsertQueueDrain s
  | .tableReaderGrant => Sys2Proof.Machine.execTableReaderGrant s
  | .guardNoCommand arg => Sys2Proof.Machine.execGuardNoCommand arg s
  | .acknowledge arg => Sys2Proof.Machine.execAcknowledge arg s
  | .stopAll arg => Sys2Proof.Machine.execStopAll arg s
  | .releaseStop arg => Sys2Proof.Machine.execReleaseStop arg s
  | .guardUnknownCommand code arg => Sys2Proof.Machine.execGuardUnknownCommand code arg s
  | .loadConfig arg => Sys2Proof.Machine.execLoadConfig arg s
  | .consumer value => Sys2Proof.Machine.execConsumer value s
  | .lineNoCommand n arg => Sys2Proof.Machine.execLineNoCommand n arg s
  | .bind n arg => Sys2Proof.Machine.execBind n arg s
  | .start n arg => Sys2Proof.Machine.execStart n arg s
  | .hold n arg => Sys2Proof.Machine.execHold n arg s
  | .resume n arg => Sys2Proof.Machine.execResume n arg s
  | .endStage n arg => Sys2Proof.Machine.execEndStage n arg s
  | .release n arg => Sys2Proof.Machine.execRelease n arg s
  | .resync n arg => Sys2Proof.Machine.execResync n arg s
  | .rearmFlags n arg => Sys2Proof.Machine.execRearmFlags n arg s
  | .lineUnknownCommand n code arg => Sys2Proof.Machine.execLineUnknownCommand n code arg s
  | .flowTarget n value => Sys2Proof.Machine.execFlowTarget n value s
  | .ceilingRequest n value => Sys2Proof.Machine.execCeilingRequest n value s
  | .mixRequest n value => Sys2Proof.Machine.execMixRequest n value s
  | .bindCopyComplete n => Sys2Proof.Machine.execBindCopyComplete n s
  | .sample n => Sys2Proof.Machine.execSample n s
  | .rampExpiry n => Sys2Proof.Machine.execRampExpiry n s
  | .dwellExpiry n => Sys2Proof.Machine.execDwellExpiry n s
  | .settleExpiry n => Sys2Proof.Machine.execSettleExpiry n s
  | .linkStateChange n => Sys2Proof.Machine.execLinkStateChange n s
  | .unansweredCommand n => Sys2Proof.Machine.execUnansweredCommand n s
  | .refusedLocal n => Sys2Proof.Machine.execRefusedLocal n s
  | .plantStopEvent n cause => Sys2Proof.Machine.execPlantStopEvent n cause s
  | .holdDemand n => Sys2Proof.Machine.execHoldDemand n s
  | .riseObserved n => Sys2Proof.Machine.execRiseObserved n s
  | .returnObserved n => Sys2Proof.Machine.execReturnObserved n s
  | .clockMissing n => Sys2Proof.Machine.execClockMissing n s
  | .framingError n char => Sys2Proof.Machine.execFramingError n char s
  | .sampleFrame n char => Sys2Proof.Machine.execSampleFrame n char s
  | .sampleJudgedAtLink n => Sys2Proof.Machine.execSampleJudgedAtLink n s
  | .answer n => Sys2Proof.Machine.execAnswer n s
  | .frameRequest n => Sys2Proof.Machine.execFrameRequest n s
  | .stopRequest n => Sys2Proof.Machine.execStopRequest n s
  | .receiverRestart n => Sys2Proof.Machine.execReceiverRestart n s
  | .rearm n => Sys2Proof.Machine.execRearm n s
  | .frameSent n => Sys2Proof.Machine.execFrameSent n s
  | .answerTimeout n => Sys2Proof.Machine.execAnswerTimeout n s
  | .refreshTimerExpiry n => Sys2Proof.Machine.execRefreshTimerExpiry n s
  | .sampleTimeout n => Sys2Proof.Machine.execSampleTimeout n s
  | .alertRaise cls => Sys2Proof.Machine.execAlertRaise cls s
  | .ackTimeout => Sys2Proof.Machine.execAckTimeout s
  | .loadNotice => Sys2Proof.Machine.execLoadNotice s
  | .report => Sys2Proof.Machine.execReport s
  | .ringRecordWrite => Sys2Proof.Machine.execRingRecordWrite s
  | .ringPlacement => Sys2Proof.Machine.execRingPlacement s
  | .loadJobComplete => Sys2Proof.Machine.execLoadJobComplete s
  | .uplinkClockEdge n => Sys2Proof.Machine.execUplinkClockEdge n s
  | .syncFound n bit => Sys2Proof.Machine.execSyncFound n bit s
  | .sync1Character n char => Sys2Proof.Machine.execSync1Character n char s
  | .frameStart n char => Sys2Proof.Machine.execFrameStart n char s
  | .answerFrame n char => Sys2Proof.Machine.execAnswerFrame n char s

end Sys2Proof.Machine
end

