-- ==== Sys2Proof/Machine/Time.lean ====
section
/-! DEFINITION. One millisecond of time (00_scope.md, "Time"): what the step does on an empty command queue (log 1). -/

namespace Sys2Proof.Machine

/-- A millisecond of a running timer. With none left it has expired and the expiry is not yet taken (log 17). -/
def Timer.tick : Timer → Timer
  | .stopped => .stopped
  | .running 0 => .running 0
  | .running (k + 1) => .running k

/-- A millisecond of the timers of a line. -/
def Line.tick (l : Line) : Line := { l with dwell := l.dwell.tick, ramp := l.ramp.tick, settle := l.settle.tick }

/-- A link timer that runs out at this millisecond. -/
def Timer.runsOut : Timer → Bool
  | .stopped => false
  | .running k => k ≤ 1

/-- A millisecond of a link timer: it stops when it runs out. -/
def Timer.countDown (t : Timer) : Timer := if t.runsOut then .stopped else t.tick

/-- The expiry of a link timer, as an event at the controller (R152). -/
def Timer.expiry (t : Timer) (e : LinkInput) : List LinkArrival := if t.runsOut then [⟨e, false⟩] else []

/-- A millisecond of the timers of a link, to the count `now`. The watch timer's expiry keeps its time (R133). Where two
of the other timers run out at one millisecond, the expiries arise in the order answer, refresh, sample, which is the
model's choice (log 36). -/
def Link.tick (now : Long) (k : Link) : Link :=
  { k with
    watchTimer := k.watchTimer.countDown
    watchExpiry := if k.watchTimer.runsOut then some now else k.watchExpiry
    answerTimer := k.answerTimer.countDown
    refreshTimer := k.refreshTimer.countDown
    sampleTimer := k.sampleTimer.countDown
    arrivals := k.arrivals ++
      (k.answerTimer.expiry .answerExpiry ++ k.refreshTimer.expiry .refreshExpiry ++
        k.sampleTimer.expiry .sampleExpiry) }

/-- One millisecond: the count rises, wrapping through zero (R175), and every running timer runs on. -/
def State.tick (s : State) : State :=
  { s with
    clock := s.clock + 1
    lines := s.lines.map Line.tick
    links := s.links.map (Link.tick (s.clock + 1))
    alert := { s.alert with ackTimer := s.alert.ackTimer.tick } }

end Sys2Proof.Machine
end

