-- ==== Sys2Proof/Safety.lean ====
section
/-! DEFINITION. The properties the statements speak of: room in the insert queue, and the invariants of the part. -/

namespace Sys2Proof.Machine

/-! ### Posts -/

/-- The insert queue has room for k posts whatever their addresses. -/
abbrev State.room (s : State) (k : Nat) : Prop := s.queue.length + k ≤ Config.queueCapacity

/-- The state after posts are accepted one after another (R25). -/
def State.postAll (s : State) (ps : List Post) : State := ps.foldl State.accept s

/-- A post to word w of line n's image block. -/
def lineWord (n : LineNo) (w : Nat) (v : Word) : Post := ⟨lineAddr n w, v⟩

/-- A post to status word k. -/
def statusWord (k : Nat) (v : Word) : Post := ⟨statusAddr k, v⟩

/-- No event of link n's own waits at its controller (log 13). -/
def State.noOwn (s : State) (n : LineNo) : Prop := ∀ a ∈ (s.link n).arrivals, a.input.source ≠ .own

/-- Link n's controller has no event that waited behind a post. -/
def State.noneWaited (s : State) (n : LineNo) : Prop := ∀ a ∈ (s.link n).arrivals, a.waited = false

/-- A report handed over (R163). -/
def State.reported (s : State) (r : Report) : ReportUnit := { s.report with handed := s.report.handed ++ [r] }

/-- The words of one refusal's record (R14). -/
def refusalWords (a : Addr) (r : RefuseReason) : List Post :=
  [statusWord 6 r.code, statusWord 7 (a.setWidth 16), statusWord 8 ((a >>> 16).setWidth 16)]

/-- The run count after a grant to the host (R22). -/
def runAfterHost (s : State) : Nat := if s.jobs ≠ [] ∨ s.queue ≠ [] then s.runCount + 1 else 0

/-- The full write to a watched word that a command is, with the block that owns the word where that block can be busy
(R9 to R11). -/
def watchedWrite : Instr → Option (HostWrite × Block)
  | .guardNoCommand arg => some (fullWrite (statusAddr 0) (wordOf 0x00 arg), .alert)
  | .acknowledge arg => some (fullWrite (statusAddr 0) (wordOf 0x01 arg), .alert)
  | .stopAll arg => some (fullWrite (statusAddr 0) (wordOf 0x02 arg), .alert)
  | .releaseStop arg => some (fullWrite (statusAddr 0) (wordOf 0x03 arg), .alert)
  | .loadConfig arg => some (fullWrite (statusAddr 0) (wordOf 0x04 arg), .config)
  | .guardUnknownCommand code arg =>
    some (fullWrite (statusAddr 0) (wordOf code arg), if code = 0x04 then .config else .alert)
  | .lineNoCommand n arg => some (fullWrite (lineAddr n 0) (wordOf 0x00 arg), .line n)
  | .bind n arg => some (fullWrite (lineAddr n 0) (wordOf 0x01 arg), .line n)
  | .start n arg => some (fullWrite (lineAddr n 0) (wordOf 0x02 arg), .line n)
  | .hold n arg => some (fullWrite (lineAddr n 0) (wordOf 0x03 arg), .line n)
  | .resume n arg => some (fullWrite (lineAddr n 0) (wordOf 0x04 arg), .line n)
  | .endStage n arg => some (fullWrite (lineAddr n 0) (wordOf 0x05 arg), .line n)
  | .release n arg => some (fullWrite (lineAddr n 0) (wordOf 0x06 arg), .line n)
  | .resync n arg => some (fullWrite (lineAddr n 0) (wordOf 0x07 arg), .line n)
  | .rearmFlags n arg => some (fullWrite (lineAddr n 0) (wordOf 0x08 arg), .line n)
  | .lineUnknownCommand n code arg => some (fullWrite (lineAddr n 0) (wordOf code arg), .line n)
  | .flowTarget n v => some (fullWrite (lineAddr n 1) v, .line n)
  | .ceilingRequest n v => some (fullWrite (lineAddr n 2) v, .line n)
  | .mixRequest n v => some (fullWrite (lineAddr n 3) v, .line n)
  | _ => none

/-- The guard command of a code (R9, R156). -/
def guardRow (code arg : Byte) : Instr :=
  if code = 0x00 then .guardNoCommand arg else if code = 0x01 then .acknowledge arg
  else if code = 0x02 then .stopAll arg else if code = 0x03 then .releaseStop arg
  else if code = 0x04 then .loadConfig arg else .guardUnknownCommand code arg

/-- The line command of a code (R61). -/
def lineRow (n : LineNo) (code arg : Byte) : Instr :=
  if code = 0x00 then .lineNoCommand n arg else if code = 0x01 then .bind n arg
  else if code = 0x02 then .start n arg else if code = 0x03 then .hold n arg
  else if code = 0x04 then .resume n arg else if code = 0x05 then .endStage n arg
  else if code = 0x06 then .release n arg else if code = 0x07 then .resync n arg
  else if code = 0x08 then .rearmFlags n arg else .lineUnknownCommand n code arg

/-- The row of the table a command belongs to: a full HOST_WRITE to a watched word is the command of its row. -/
def rowOf : Instr → Instr
  | .hostWrite a v .both =>
    match classify (wordAddr a) with
    | .below => .hostWrite a v .both
    | .plain => .hostWrite a v .both
    | .partOwned => .hostWrite a v .both
    | .guardCommand => guardRow (highByte v) (lowByte v)
    | .consumer => .consumer v
    | .control n => lineRow n (highByte v) (lowByte v)
    | .setpoint n word =>
      if word = 1 then .flowTarget n v else if word = 2 then .ceilingRequest n v else .mixRequest n v
  | .guardUnknownCommand code arg => guardRow code arg
  | .lineUnknownCommand n code arg => lineRow n code arg
  | c => c

/-- A TRIP report of a line has been made, and the Alert Controller has not yet taken its raise (log 39): it is still to
be handed over behind a waiting post, or waits to be taken, or the raise itself waits. The raise of a PLANT_STOP report is
none. -/
def tripComes (s : State) : Prop :=
  (∃ r ∈ s.alert.raises, r.ofTrip = true) ∨ (∃ r ∈ s.report.handed, r.kind = .trip) ∨
    ∃ w ∈ s.waiting, ∃ r : Report, Act.hand r ∈ w.rest ∧ r.kind = .trip

/-- The 21 start-up posts (R175). -/
def startUpPosts : List Post :=
  State.startUpLines ++ State.startUpLinks ++
    [statusWord 1 0, statusWord 2 0, statusWord 3 0x9000, statusWord 4 0, statusWord 9 0]

/-! ### Time -/

/-- A timer of a line, or the acknowledge timer, a millisecond on: one that has run out keeps 0 until its expiry is taken
(log 17). -/
def oneDown : Timer → Timer
  | .stopped => .stopped
  | .running k => .running (k - 1)

/-- A link timer runs out at this millisecond. -/
def endsNow : Timer → Bool
  | .stopped => false
  | .running k => decide (k ≤ 1)

/-- A link timer a millisecond on: it stops as it runs out (log 17). -/
def oneDownLink (t : Timer) : Timer := if endsNow t then .stopped else oneDown t

/-- The expiry a link timer sends as it runs out. -/
def expiryOf (t : Timer) (e : LinkInput) : List LinkArrival := if endsNow t then [⟨e, false⟩] else []

/-! ### The conditions of the words of a record and of an image -/

/-- Word k of a stage record holds its condition, as the tables of R36, R37 and R38 give them. `v` is the words as
numbers; a condition on two words is judged at the higher-numbered, and that of Imax at word 10 (R40). -/
abbrev recordWordHolds (st : StageNo) (v : Nat → Nat) (k : Nat) : Prop :=
  (k = 2 → v 1 + 1 ≤ v 2 ∧ v 2 ≤ v 1 + 300) ∧
  (k = 3 → 50 ≤ v 3 ∧ v 3 ≤ 20000) ∧
  (k = 4 → v 4 ≤ 2000) ∧
  (k = 5 → 10 ≤ v 5 ∧ v 5 ≤ v 3) ∧
  (k = 6 → 1 ≤ v 6 ∧ v 6 ≤ 600) ∧
  (k = 7 → 10 ≤ v 7 ∧ v 7 ≤ 3600) ∧
  (k = 8 → 10 ≤ v 8 ∧ v 8 ≤ 6000 ∧ v 6 ≤ v 8) ∧
  (k = 9 → 1 ≤ v 9 ∧ v 9 ≤ 1000) ∧
  (k = 10 → 1 ≤ v 10 + 65536 * v 11 ∧ v 10 + 65536 * v 11 ≤ 4000000) ∧
  (k = 12 → 1 ≤ v 12 ∧ v 12 ≤ 5000) ∧
  (k = 13 → 5 ≤ v 13 ∧ v 13 ≤ 90) ∧
  (k = 14 → 5 ≤ v 14 ∧ v 14 ≤ 500) ∧
  (k = 15 → 1 ≤ v 15 ∧ v 15 ≤ 5000) ∧
  (k = 16 → 10 ≤ v 16 ∧ v 16 ≤ 5000) ∧
  (k = 17 → 1 ≤ v 17 ∧ v 17 ≤ 60000) ∧
  (k = 18 → v 18 ≤ 4) ∧
  (19 ≤ k → k ≤ 22 → k ≤ 18 + v 18 → v k ≤ 63 ∧ v k ≠ st.val ∧ ∀ j, j < k → 19 ≤ j → v j ≠ v k) ∧
  (k = 23 → 1 ≤ v 23 ∧ v 23 ≤ 6) ∧
  (24 ≤ k → k ≤ 35 → (k - 24) / 2 < v 23 →
    (k % 2 = 0 → 1 ≤ v k % 256 ∧ v k % 256 ≤ 254) ∧ (k % 2 = 1 → 1 ≤ v k ∧ v k ≤ 5000)) ∧
  (k = 36 → v 36 ≤ 7) ∧
  (k = 37 → v 37 ≤ 60)

/-- Configuration word k holds its range, as the table of R168 gives them. -/
abbrev configWordHolds (k : Nat) (w : Word) : Prop :=
  (k = 0 → w.toNat ≤ 255) ∧
  (k = 1 → w.toNat ≤ 3) ∧
  (k = 2 → lowByte w ∉ ([0x00, 0xFF, 0x5A, 0x3C, 0xA5, 0xC3, 0x0F, 0x69] : List Byte)) ∧
  (k = 3 → 50 ≤ w.toNat ∧ w.toNat ≤ 2000) ∧
  (k = 4 → 20 ≤ w.toNat ∧ w.toNat ≤ 500) ∧
  (k = 5 → 100 ≤ w.toNat ∧ w.toNat ≤ 2000) ∧
  (k = 6 → 1 ≤ w.toNat ∧ w.toNat ≤ 60) ∧
  (k = 7 → ∀ b, b < 16 → w.getLsbD b = true → 2 ≤ b ∧ b ≤ 5) ∧
  (k = 8 → w.toNat ≤ 508 ∨ w = 0xFFFF) ∧
  (k = 9 → w.toNat ≤ 0xFF7F) ∧
  (k = 10 → 16 ≤ w.toNat ∧ w.toNat ≤ 256)

/-- Line n is in use (R172): its supervisor is not VACANT, or a STOP waits at its controller or stands in its slot. -/
abbrev inUse (s : State) (n : LineNo) : Prop :=
  (s.line n).state ≠ .vacant ∨ (s.link n).stopWaiting = true ∨ ∃ c, (s.link n).inFlight = some c ∧ c.kind = .stop

/-- The ring and the table that an image places have an address in common (R3, R171). -/
def areasMeet (i : Vector Word 12) : Prop :=
  i[8] ≠ 0xFFFF ∧ ∃ a : Nat,
    i[8].toNat * 2048 ≤ a ∧ a < i[8].toNat * 2048 + 6144 ∧
    i[9].toNat * 16 ≤ a ∧ a < i[9].toNat * 16 + i[10].toNat * 16

/-! ### Shapes of states and posts that the statements use -/

/-- The line after its entry to ENDED (R56, R53), as the statements below use it. -/
def endedLine (l : Line) (r : EndReason) : Line :=
  { l with
    state := .ended
    endReason := some r
    admitted := 0
    ramp := .stopped
    dwell := .stopped
    settle := .stopped
    baseline := if l.state.idleBound then none else l.baseline
    riseFlag := if l.state.idleBound then false else l.riseFlag
    holdReason := if l.state.idleBound then none else l.holdReason }

/-- The STAGE_ENDED report (R56), as the statements below use it. -/
def endedReport (n : LineNo) (l : Line) (r : EndReason) (now : Long) : Report :=
  { kind := .stageEnded
    line := lineByte n
    stage := stageByte l.stage
    time := now
    valueA := l.volume
    valueB := longOf l.take (wordOf (lowByte l.mixIndex) r.code) }

/-- The state after a line's entry to ENDED by a command or by the dwell, before its posts (R56): the context, the STOP
request and the report. -/
def endedState (s : State) (n : LineNo) (r : EndReason) : State :=
  { s with
    lines := s.lines.set n (endedLine (s.line n) r)
    links := s.links.set n { s.link n with arrivals := (s.link n).arrivals ++ [⟨.stop, false⟩] }
    report := s.reported (endedReport n (s.line n) r s.clock) }

/-- What the first failing test of BIND, START, HOLD, RESUME, END or RELEASE gives as its outcome (R62, R64 to R68). -/
def declined (s : State) (n : LineNo) : Instr → Option (Byte × Byte × Byte)
  | .bind m arg =>
    if m ≠ n then none
    else if (s.line n).state ≠ .vacant then some (1, arg, 3)
    else if s.config.enabled n = false then some (1, arg, 4)
    else if s.config.load = .loading then some (1, arg, 8)
    else if s.tableBase = none then some (1, arg, 5)
    else if 64 ≤ arg.toNat then some (1, arg, 6)
    else if s.bindingOf (Fin.ofNat 64 arg.toNat) ≠ none then some (1, arg, 7)
    else none
  | .start m arg =>
    if m ≠ n then none
    else if (s.line n).state ≠ .bound then some (2, arg, 3)
    else if (s.line n).linkCopy ≠ .up then some (2, arg, 9)
    else if s.alert.plantStop ≠ none then some (2, arg, 10)
    else if (s.line n).flags.getLsbD 1 = true then some (2, arg, 11)
    else none
  | .hold m arg =>
    if m ≠ n then none
    else if (s.line n).state ≠ .injecting ∧ (s.line n).state ≠ .closing then some (3, arg, 3) else none
  | .resume m arg =>
    if m ≠ n then none
    else if (s.line n).state ≠ .holding then some (4, arg, 3)
    else if (s.line n).linkCopy ≠ .up then some (4, arg, 9)
    else if s.alert.plantStop ≠ none then some (4, arg, 10)
    else if (s.line n).flags.getLsbD 1 = true then some (4, arg, 11)
    else none
  | .endStage m arg =>
    if m ≠ n then none
    else match (s.line n).state with
      | .vacant => some (5, arg, 3)
      | .binding => some (5, arg, 3)
      | .ended => some (5, arg, 3)
      | .tripped => some (5, arg, 3)
      | _ => none
  | .release m arg =>
    if m ≠ n then none
    else match (s.line n).state with
      | .vacant => some (6, arg, 3)
      | .injecting => some (6, arg, 3)
      | .closing => some (6, arg, 3)
      | .holding => some (6, arg, 3)
      | _ => none
  | _ => none

/-- A line with its oldest job-complete event taken, as the statements below use it. -/
def withJobDone (l : Line) (rest : List Byte) : Line := { l with mail := { l.mail with jobDone := rest } }

/-- The dwell remaining word, posted in CLOSING alone (R99): the seconds left on the dwell timer, rounded up. -/
def dwellWord (n : LineNo) (l : Line) : List Post :=
  if l.state = .closing then
    [lineWord n 19 (match l.dwell with
      | .stopped => 0
      | .running ms => BitVec.ofNat 16 ((ms + 999) / 1000))]
  else []

/-- The measurement words of a sample (R99), in order, for a line context after step 2: thirteen in CLOSING, twelve in every
other state. -/
def measured (n : LineNo) (l : Line) (x : Sample) : List Post :=
  [lineWord n 7 x.pressure, lineWord n 8 x.flow, lineWord n 9 x.uplift, lineWord n 16 (l.flags.setWidth 16),
    lineWord n 10 (lowWord l.volume), lineWord n 11 (highWord l.volume), lineWord n 12 l.take,
    lineWord n 13 l.intensityCeiling, lineWord n 14 l.effectiveCeiling, lineWord n 15 l.admitted] ++
  dwellWord n l ++ [lineWord n 17 (lowWord x.arrival), lineWord n 18 (highWord x.arrival)]

/-- The line after step 1 of a sample (R95). -/
def afterStep1 (l : Line) (x : Sample) : Line := { l with lastSampleSeq := some x.seq, flags := x.flags.setWidth 4 }

/-- The supervisor is free to take the sample at the head of its FIFO, no restart of the receiver is outstanding, no
overrun is to be reported and no setpoint answer waits to be acted on. -/
def sampleReady (s : State) (n : LineNo) (x : Sample) (rest : List Sample) : Prop :=
  s.busy (.line n) = false ∧ (s.link n).fifo = x :: rest ∧ (s.link n).overrun = none ∧
  (∀ a ∈ (s.link n).arrivals, a.input ≠ .restart) ∧ ∀ w v r b, s.cycle ≠ .answered w v r b

/-- The accounting of sample x in an open stage (R97, R98, R84): line n's context `l` after step 1 and step 2 of a context
`before`, the reports handed over and the requests made. An absent baseline takes the meter count; a difference above the
jump limit is discarded and METER_JUMP is reported; any other is added to the volume, and in INJECTING and CLOSING a volume
raised so that the effective ceiling lies 10 kPa or more below the last sent requests a SETPOINT. -/
def accountedAs (n : LineNo) (before : Line) (x : Sample) (l : Line) (reports : List Report)
    (requests : List LinkArrival) : Prop :=
  before.meterBaseline = none ∧ reports = [] ∧ requests = [] ∧
      l = { afterStep1 before x with meterBaseline := some x.meter } ∨
    (∃ b, before.meterBaseline = some b ∧ before.stageWord 17 < x.meter - b ∧ requests = [] ∧
      l = { afterStep1 before x with meterBaseline := some x.meter } ∧
      reports =
        [{ kind := .meterJump, line := lineByte n, stage := stageByte before.stage, time := x.arrival,
           valueA := longOf x.meter b, valueB := longOf (x.meter - b) (before.stageWord 17) }]) ∨
    ∃ b, before.meterBaseline = some b ∧ x.meter - b ≤ before.stageWord 17 ∧ reports = [] ∧
      l = ({ afterStep1 before x with meterBaseline := some x.meter } : Line).addVolume (x.meter - b) ∧
      requests =
        if before.state.flowing = true ∧ l.volume ≠ before.volume ∧
            l.effectiveCeiling.toNat + 10 ≤ before.lastSentCeiling.toNat
        then [⟨.request .setpoint, false⟩] else []

/-- The posts among acts, in order. -/
def postsOf (acts : List Act) : List Post := acts.filterMap fun | .post p => some p | _ => none

/-- The reports that acts hand over, in order. -/
def reportsOf (acts : List Act) : List Report := acts.filterMap fun | .hand r => some r | _ => none

/-- The observations that acts send to the Communication Monitor, in order. -/
def observationsOf (acts : List Act) : List Observation := acts.filterMap fun | .observe o => some o | _ => none

/-- The requests and STOPs that acts send to the line's Field Link Controller, in order. -/
def arrivalsOf (acts : List Act) : List LinkArrival :=
  acts.filterMap fun
    | .request _ k => some ⟨.request k, false⟩
    | .stop _ => some ⟨.stop, false⟩
    | _ => none

/-- The state after a flowing line trips on an event of the link or the plant (R115, R116), before its posts. `l` is the
line as the event finds it. -/
def trippedState (s : State) (n : LineNo) (l : Line) (c : TripCause) : State :=
  { s with
    lines := s.lines.set n
      { l with
        state := .tripped, tripCause := some c, admitted := 0, ramp := .stopped, dwell := .stopped,
        settle := .stopped, holdReason := none }
    links := s.links.set n { s.link n with arrivals := (s.link n).arrivals ++ [⟨.stop, false⟩] }
    report := s.reported
      { kind := .trip, detail := c.code.setWidth 7, line := lineByte n, stage := stageByte l.stage, time := s.clock,
        valueA := l.volume, valueB := longOf l.take l.admitted } }

/-- The posts of that trip (R115). -/
def trippedPosts (n : LineNo) (l : Line) (c : TripCause) : List Post :=
  [lineWord n 15 0] ++ (if l.state = .closing then [lineWord n 19 0] else []) ++
    [lineWord n 4 (stateWord { l with state := .tripped }), lineWord n 6 (wordOf 0 c.code)]

/-- The state after a flowing line is held by the part on an event (R55, R122), before its posts. -/
def heldState (s : State) (n : LineNo) (l : Line) (r : HoldReason) (a b : Long) : State :=
  { s with
    lines := s.lines.set n
      { l with
        state := .holding, admitted := 0, ramp := .stopped, dwell := .stopped, holdReason := some r,
        settle := .running (1000 * (l.stageWord 37).toNat), baseline := none, riseFlag := false }
    links := s.links.set n
      { s.link n with arrivals := (s.link n).arrivals ++ [⟨.request .setpoint, false⟩] }
    report := s.reported
      { kind := .holdImposed, detail := r.code.setWidth 7, line := lineByte n, stage := stageByte l.stage,
        time := s.clock, valueA := a, valueB := b } }

/-- The posts of that hold (section 7.4). -/
def heldPosts (n : LineNo) (l : Line) (r : HoldReason) : List Post :=
  [lineWord n 15 0] ++ (if l.state = .closing then [lineWord n 19 0] else []) ++
    [lineWord n 4 (wordOf (stageByte l.stage) 5), lineWord n 6 (wordOf 0 r.code)]

/-- A report of Field Link Controller n (chapter 8): its line, the time, and a stage byte that the spec does not state
(log 10). -/
def linkReported (s : State) (n : LineNo) (kind : ReportKind) (detail : BitVec 7) (valueA valueB : Long) : Report :=
  { kind := kind
    detail := detail
    line := lineByte n
    stage := Config.freeLinkReportStage s.freeCount
    time := s.clock
    valueA := valueA
    valueB := valueB }

/-- Field Link Controller n, free of any operation, is to take event `e` next of its source, and `rest` is then left, none
of it the controller's own. -/
def linkTurn (s : State) (n : LineNo) (e : LinkInput) (rest : List LinkArrival) : Prop :=
  s.busy (.link n) = false ∧ (s.link n).nextInput e.source = some (e, rest) ∧ ∀ a ∈ rest, a.input.source ≠ .own

/-- The events of a controller without one kind of expiry. -/
def without (arrivals : List LinkArrival) (e : LinkInput) : List LinkArrival := arrivals.filter fun a => a.input != e

/-- The events that arose at controller n while its operation waited are marked, so that they are taken in the order in
which they arose (R152). -/
def waitedOut (s : State) (n : LineNo) : State :=
  { s with
    links := s.links.set n
      { s.link n with arrivals := (s.link n).arrivals.map fun a => { a with waited := true } } }

/-- The post of LAST COMMAND (R148). -/
def lastCommand (n : LineNo) (kind : CommandKind) (seq : Byte) (status : CommandStatus) : Post :=
  lineWord n 22 (lastCommandWord kind seq status)

/-- The lines after Field Link Controller n tells its supervisor some events (R117). -/
def told (s : State) (n : LineNo) (events : List LinkEvent) : Vector Line 8 :=
  s.lines.set n
    { s.line n with mail := { (s.line n).mail with linkEvents := (s.line n).mail.linkEvents ++ events } }

/-- The STOP taken with link n as `k` (R141): a command AWAITING is superseded, and the STOP enters the slot and the
wire. The state, but for its posts. -/
def stopTaken (s : State) (n : LineNo) (k : Link) : State :=
  State.sendCommand
    { s with
      links := s.links.set n
        (if k.inFlight = none then k
          else { k with arrivals := without k.arrivals .answerExpiry, answerTimer := .stopped }) }
    n .stop

/-- The posts of that taking (R141). -/
def stopPosts (n : LineNo) (k : Link) : List Post :=
  (match k.inFlight with
    | some c => [lastCommand n c.kind c.seq .superseded]
    | none => []) ++
  [lastCommand n .stop k.downlinkSeq .awaiting]

/-! ### Invariants -/

/-- The memory is in its canonical form. -/
def Canonical (s : State) : Prop := Memory.wf s.mem = true

/-- R23, R24: at most 16 entries, no two for one address; from 12 entries on drain mode is on, and it is on only with
five entries or more. -/
def QueueSound (s : State) : Prop :=
  s.queue.length ≤ Config.queueCapacity ∧
  (s.queue.map Post.addr).Nodup ∧
  (Config.drainOnAt ≤ s.queue.length → s.drain = true) ∧
  (s.drain = true → Config.drainOffAt + 1 ≤ s.queue.length)

/-- R22: the run count never exceeds 8. -/
def RunSound (s : State) : Prop := s.runCount ≤ Config.hostRunLimit

/-- The phase in which a line in this state is held by the Binding Table (3.4). -/
def LineState.phase : LineState → Option Phase
  | .vacant => none
  | .binding => some .binding
  | .bound => some .bound
  | .injecting => some .bound
  | .closing => some .bound
  | .holding => some .bound
  | .ended => some .bound
  | .tripped => some .bound

/-- R43: the entries of the Binding Table and the line contexts correspond. -/
def Corresponds (s : State) : Prop :=
  ∀ n : LineNo,
    ((s.line n).stage = none ↔ (s.line n).state = .vacant) ∧
    ∀ (st : StageNo) (ph : Phase),
      s.bindingOf st = some ⟨n, ph⟩ ↔ (s.line n).stage = some st ∧ (s.line n).state.phase = some ph

/-- A line context keeps the rules of its state: R52 (no flow outside INJECTING and CLOSING), R77, R79 and R81 (the admitted
flow stays within the target and the target within max flow; the ceiling request stays within Pmax, and the intensity and
the effective ceiling are what the formulas of R81 give from the take and the request), R42 (the copy in force),
R79, R104 and R123 (which timer runs in which state), R100 (the window holds at most eight pairs). -/
def LineSound (l : Line) : Prop :=
  (l.state.flowing = false → l.admitted = 0) ∧
  l.admitted ≤ l.flowTarget ∧
  l.flowTarget ≤ l.maxFlow ∧
  l.ceilingRequest ≤ l.pmax ∧
  l.intensityCeiling.toNat = (if l.take = 0 then (l.stageWord 3).toNat
    else min (l.stageWord 3).toNat (((l.stageWord 10).toNat + 65536 * (l.stageWord 11).toNat) / l.take.toNat)) ∧
  l.effectiveCeiling = minWord l.ceilingRequest l.intensityCeiling ∧
  (l.copy.isSome = true ↔ l.state.phase = some .bound) ∧
  (l.filling.isSome = true ↔ l.state = .binding) ∧
  (l.ramp ≠ .stopped → l.state.flowing = true ∧ l.admitted < l.flowTarget) ∧
  (l.dwell ≠ .stopped → l.state = .closing) ∧
  (l.settle ≠ .stopped → l.state.idleBound = true) ∧
  l.window.length ≤ Config.windowSize

/-- Every line context keeps the rules of its state. -/
def LinesSound (s : State) : Prop := ∀ n : LineNo, LineSound (s.line n)

/-- R158: PLANT STOP is asserted while no image is loaded, and no notice of a load is on its way. -/
def PlantHeld (s : State) : Prop :=
  s.config.image = none →
    s.alert.plantStop ≠ none ∧ s.alert.loadNotices = 0 ∧ ∀ w ∈ s.waiting, Act.loadNotice ∉ w.rest

/-- The host write a cycle may still make to the RAM. -/
def HostCycle.mayWrite : HostCycle → Option HostWrite
  | .idle => none
  | .read _ => none
  | .held w => some w
  | .taken w => some w
  | .answered w _ _ _ => some w
  | .answering w => some w
  | .refusing _ => none
  | .write w => some w

/-- R6: the host cycle is never one that may write a part-owned word. R3: an old ring extent is the extent of an image,
whose base is a multiple of 16. -/
def HostSound (s : State) : Prop :=
  (∀ w, s.cycle.mayWrite = some w → classify (wordAddr w.addr) ≠ .partOwned) ∧
  ∀ r, s.oldRing = some r → r.base % 16 = 0

/-- R137, R139, R163: the FIFO, PENDING and the report list stay within their sizes. -/
def ListsSound (s : State) : Prop :=
  s.report.pending.length ≤ Config.pendingReports ∧
  ∀ n : LineNo, (s.link n).fifo.length ≤ Config.fifoCapacity ∧ (s.link n).pending.Nodup

end Sys2Proof.Machine
end

