-- ==== Sys2Proof/Certificates/Slice0/Obligations.lean ====
section
/-! DEFINITION. The statements for the provers. Each is a `Prop` about the model; none is proved here. -/

section Statements

open Sys2Proof Sys2Proof.Machine

/-! ### Steps, time and reset -/

/-- A step takes the command at the front of the queue and runs it on the queue's rest (95, "each whole and
indivisible"; log 8). -/
def Obligations.StepRunsTheFrontCommand : Prop :=
  ∀ (c : Instr) (rest : List Instr) (s : State), s.pending = c :: rest → step s = exec c { s with pending := rest }

/-- On an empty command queue a millisecond passes (00, "Time"; the model's choice, logs 1 and 17): the count rises by
one, wrapping through zero, every running timer has one millisecond less, and nothing else changes. A timer of a line and the
acknowledge timer keep 0 until their expiry is taken (log 17). A link timer stops as it runs out: the watch timer leaves the
time of its expiry (R133), and the answer, the refresh and the sample timer send their expiries, in this order where two run
out at one millisecond (log 36). -/
def Obligations.AnEmptyQueueIsOneMillisecond : Prop :=
  ∀ s : State, s.pending = [] →
    step s =
      .next { s with
        clock := s.clock + 1
        lines := s.lines.map fun l =>
          { l with dwell := oneDown l.dwell, ramp := oneDown l.ramp, settle := oneDown l.settle }
        links := s.links.map fun k =>
          { k with
            watchTimer := oneDownLink k.watchTimer
            watchExpiry := if endsNow k.watchTimer then some (s.clock + 1) else k.watchExpiry
            answerTimer := oneDownLink k.answerTimer
            refreshTimer := oneDownLink k.refreshTimer
            sampleTimer := oneDownLink k.sampleTimer
            arrivals := k.arrivals ++ expiryOf k.answerTimer .answerExpiry ++
              expiryOf k.refreshTimer .refreshExpiry ++ expiryOf k.sampleTimer .sampleExpiry }
        alert := { s.alert with ackTimer := oneDown s.alert.ackTimer } }

/-- RESET (R175 with R19, R34, R49, R50, R153, R167) completes in every state: every block takes its reset state (the values
of log 6 where the spec gives none), memory is not written, and nothing that was queued or waiting before it is left. Each of
the 21 start-up posts is queued or waits, and nothing else is: every entry, every waiting post and every post still to be
made is one of them. That they fill the queue to 16 entries with drain mode on, in whatever order the blocks post, is the
model's choice (log 7: no drain comes between them); the command queue and the number of free values used are the model's own
fields, which RESET keeps (logs 30, 33). -/
def Obligations.ResetLeavesEveryBlockAtItsResetState : Prop :=
  ∀ (order : List Block) (s : State), ∃ t, exec (.reset order) s = .next t ∧
    t.mem = s.mem ∧ t.clock = 0 ∧ t.cycle = .idle ∧ t.refusal = ⟨none, 0⟩ ∧ t.oldRing = none ∧
    t.port = .free ∧ t.runCount = 0 ∧ t.jobs = [] ∧ (∀ st, t.bindingOf st = none) ∧
    (∀ n, t.line n = {}) ∧ (∀ n, t.link n = {}) ∧ t.observations = [] ∧
    t.alert = { plantStop := some .reset } ∧ t.report = {} ∧ t.config = {} ∧
    t = { State.cleared with
      pending := s.pending, mem := s.mem, freeCount := s.freeCount, queue := t.queue, waiting := t.waiting,
      drain := true } ∧
    t.queue.length = 16 ∧
    (∀ p ∈ startUpPosts, p ∈ t.queue ∨ ∃ w ∈ t.waiting, w.post = p ∨ Act.post p ∈ w.rest) ∧
    (∀ p ∈ t.queue, p ∈ startUpPosts) ∧
    ∀ w ∈ t.waiting, w.post ∈ startUpPosts ∧ w.cont = none ∧ ∀ a ∈ w.rest, ∃ p ∈ startUpPosts, a = .post p

/-! ### Host reads and writes -/

/-- HOST_READ and HOST_READ_GRANT (R17, R18): a read is answered from the insert queue where it holds the word, and
otherwise waits for the port; the granted read returns the RAM word and ends the cycle. Nothing else changes but the run
count of a grant. Which byte holds which lane of the word is log 4's (PRESUMED); that bit 0 of an address is dropped is log
26's (DESIGN CHOICE). -/
def Obligations.HostReadsAreForwardedOrGranted : Prop :=
  (∀ (a : Addr) (s : State), s.cycle = .idle →
     (∀ v, queuedData s.queue (wordAddr a) = some v → exec (.hostRead a) s = .next { s with hostData := v }) ∧
     (queuedData s.queue (wordAddr a) = none → exec (.hostRead a) s = .next { s with cycle := .read (wordAddr a) })) ∧
  (∀ (a : Addr) (s : State), s.cycle = .read a → s.granted = some .host →
     exec .hostReadGrant s =
       .next { s with
         cycle := .idle
         hostData := wordOf (Memory.get s.mem ((wordAddr a).toNat + 1)) (Memory.get s.mem (wordAddr a).toNat)
         runCount := runAfterHost s })

/-- HOST_WRITE (R1, R5, R6, R13, R14, R15): a write to a plain word of the guard block, or to any word below it, asks for the
port; one to a part-owned word, or of one lane of a watched word, is refused outright: the record is replaced, its three
words are posted, the report is handed over and the cycle ends, and no block and no byte of memory sees the write. The class
of an address is that of the table of R2, at the addresses of 11.2 and 11.3, the report's line is that of the block the address
lies in, and the codes of reasons and lanes are those of 11.2 and R15. That bit 0 of an address is dropped is log 26's (DESIGN
CHOICE). -/
def Obligations.AHostWriteIsTakenOrRefusedOutright : Prop :=
  (∀ a : Addr,
     (a.toNat < 0xFF800 → classify a = .below) ∧
     (0xFF800 ≤ a.toNat ∧ a.toNat < 0xFF840 ∨ 0xFFC80 ≤ a.toNat → classify a = .plain) ∧
     (∀ n : LineNo, 0xFF880 + 0x80 * n.val ≤ a.toNat → a.toNat < 0xFF880 + 0x80 * n.val + 0x80 →
       addrLine a = BitVec.ofNat 8 n.val) ∧
     (a.toNat < 0xFF880 ∨ 0xFFC80 ≤ a.toNat → addrLine a = 0xFF)) ∧
  (∀ k : Nat, k < 32 → (statusAddr k).toNat = 0xFF840 + 2 * k ∧
     classify (statusAddr k) =
       if k = 0 then .guardCommand else if k = 5 then .consumer else if k ≤ 9 then .partOwned else .plain) ∧
  (∀ (n : LineNo) (w : Nat), w < 64 → (lineAddr n w).toNat = 0xFF880 + 0x80 * n.val + 2 * w ∧
     classify (lineAddr n w) =
       if w = 0 then .control n else if w ≤ 3 then .setpoint n w else if w ≤ 22 then .partOwned else .plain) ∧
  ([.partOwned, .ringArea, .recordBound, .consumerRange, .partialWrite, .lineState, .mixOrder] : List RefuseReason).map
     RefuseReason.code = [1, 2, 3, 4, 5, 6, 7] ∧
  ([.low, .high, .both] : List Lanes).map Lanes.code = [1, 2, 3] ∧
  (∀ (a : Addr) (v : Word) (lanes : Lanes) (s : State), s.cycle = .idle →
     classify (wordAddr a) = .plain ∨ classify (wordAddr a) = .below →
     exec (.hostWrite a v lanes) s = .next { s with cycle := .write ⟨wordAddr a, v, lanes⟩ }) ∧
  (∀ (a : Addr) (v : Word) (lanes : Lanes) (r : RefuseReason) (s : State), s.cycle = .idle → s.room 3 →
     (classify (wordAddr a) = .partOwned ∧ r = .partOwned ∨
       (classify (wordAddr a) ≠ .partOwned ∧ classify (wordAddr a) ≠ .plain ∧ classify (wordAddr a) ≠ .below ∧
         lanes ≠ .both ∧ r = .partialWrite)) →
     exec (.hostWrite a v lanes) s =
       .next (State.postAll
         { s with
           refusal := ⟨some r, wordAddr a⟩
           report := s.reported
             { kind := .writeRefused, line := addrLine (wordAddr a), stage := 0xFF, time := s.clock,
               valueA := (wordAddr a).setWidth 32, valueB := longOf v (wordOf lanes.code (lowByte r.code)) } }
         (refusalWords (wordAddr a) r)))

/-- A full HOST_WRITE to a watched word is the command of its row (R9 to R12, R61, R156). A watched write for a busy owner is
held without asking for the port (R1), and is taken, with the effect it has on an idle bus, once the owner is free (the
model's form of the waiting: log 16). -/
def Obligations.AWatchedWriteIsItsCommandAndWaitsForItsOwner : Prop :=
  (∀ s : State,
     (∀ code arg : Byte,
       exec (.hostWrite (statusAddr 0) (wordOf code arg) .both) s =
         exec (if code = 0x00 then .guardNoCommand arg else if code = 0x01 then .acknowledge arg
           else if code = 0x02 then .stopAll arg else if code = 0x03 then .releaseStop arg
           else if code = 0x04 then .loadConfig arg else .guardUnknownCommand code arg) s) ∧
     (∀ v : Word, exec (.hostWrite (statusAddr 5) v .both) s = exec (.consumer v) s) ∧
     ∀ n : LineNo,
       (∀ code arg : Byte,
         exec (.hostWrite (lineAddr n 0) (wordOf code arg) .both) s =
           exec (if code = 0x00 then .lineNoCommand n arg else if code = 0x01 then .bind n arg
             else if code = 0x02 then .start n arg else if code = 0x03 then .hold n arg
             else if code = 0x04 then .resume n arg else if code = 0x05 then .endStage n arg
             else if code = 0x06 then .release n arg else if code = 0x07 then .resync n arg
             else if code = 0x08 then .rearmFlags n arg else .lineUnknownCommand n code arg) s) ∧
       (∀ v : Word,
         exec (.hostWrite (lineAddr n 1) v .both) s = exec (.flowTarget n v) s ∧
         exec (.hostWrite (lineAddr n 2) v .both) s = exec (.ceilingRequest n v) s ∧
         exec (.hostWrite (lineAddr n 3) v .both) s = exec (.mixRequest n v) s)) ∧
  (∀ (c : Instr) (w : HostWrite) (b : Block) (s : State), watchedWrite c = some (w, b) →
     (s.cycle = .idle → s.busy b = true → exec c s = .next { s with cycle := .held w }) ∧
     (s.cycle = .held w → s.busy b = true → exec c s = .next s) ∧
     (s.cycle = .held w → s.busy b = false → exec c s = exec c { s with cycle := .idle }))

/-- HOST_WRITE_GRANT (R5, R7, R8, R14, R15): of a write that passes, the enabled lanes are written, every other byte keeps its
content and the cycle ends; a write into the Ring class or into the record of a held stage is refused outright at the
grant, which still counts as a host grant. Nothing else changes. The Ring class (R3) is the ring of the loaded image, from
word 9 times 16 on, 16 bytes for each of word 10's records, and an old ring extent; the stage table is at word 8 times 2048,
and is absent where word 8 is FFFFh or no image is loaded. Which byte holds which lane is log 4's
(PRESUMED); that bit 0 of an address is dropped is log 26's (DESIGN CHOICE). -/
def Obligations.AGrantedWriteIsWrittenOrRefused : Prop :=
  (∀ (w : HostWrite) (s : State), s.cycle = .write w → s.granted = some .host →
     (classify w.addr ≠ .below ∨
       (s.ringClass w.addr = false ∧ ∀ st, s.stageOf w.addr = some st → s.bindingOf st = none)) →
     ∃ t, exec .hostWriteGrant s = .next t ∧
       t = { s with cycle := .idle, mem := t.mem, runCount := runAfterHost s } ∧
       Memory.get t.mem (wordAddr w.addr).toNat =
         (if w.lanes = .high then Memory.get s.mem (wordAddr w.addr).toNat else lowByte w.value) ∧
       Memory.get t.mem ((wordAddr w.addr).toNat + 1) =
         (if w.lanes = .low then Memory.get s.mem ((wordAddr w.addr).toNat + 1) else highByte w.value) ∧
       ∀ a, a ≠ (wordAddr w.addr).toNat → a ≠ (wordAddr w.addr).toNat + 1 → Memory.get t.mem a = Memory.get s.mem a) ∧
  (∀ (w : HostWrite) (r : RefuseReason) (stage : Byte) (s : State),
     s.cycle = .write w → s.granted = some .host → s.room 3 → classify w.addr = .below →
     (s.ringClass w.addr = true ∧ r = .ringArea ∧ stage = 0xFF ∨
       (s.ringClass w.addr = false ∧
         ∃ st, s.stageOf w.addr = some st ∧ s.bindingOf st ≠ none ∧ r = .recordBound ∧
           stage = BitVec.ofNat 8 st.val)) →
     exec .hostWriteGrant s =
       .next (State.postAll
         { s with
           cycle := .idle
           runCount := runAfterHost s
           refusal := ⟨some r, w.addr⟩
           report := s.reported
             { kind := .writeRefused, line := addrLine w.addr, stage := stage, time := s.clock,
               valueA := w.addr.setWidth 32, valueB := longOf w.value (wordOf w.lanes.code (lowByte r.code)) } }
         (refusalWords w.addr r))) ∧
  (∀ s : State,
     (s.config.image = none → s.tableBase = none) ∧
     ∀ i, s.config.image = some i → s.tableBase = if i[8] = 0xFFFF then none else some (i[8].toNat * 2048)) ∧
  ∀ (a : Addr) (s : State),
    s.ringClass a = true ↔
      (∃ i, s.config.image = some i ∧ i[9].toNat * 16 ≤ a.toNat ∧ a.toNat < i[9].toNat * 16 + i[10].toNat * 16) ∨
      ∃ r, s.oldRing = some r ∧ r.base ≤ a.toNat ∧ a.toNat < r.base + r.size * 16

/-- R4: how a stage and a word are found from an address, and what lies outside the table. -/
def Obligations.AnAddressGivesItsStageAndWord : Prop :=
  ∀ (s : State) (base : Nat) (a : Addr), s.tableBase = some base →
    (base ≤ a.toNat → a.toNat < base + 6144 →
      (∃ st : StageNo, s.stageOf a = some st ∧ st.val = (a.toNat - base) / 96 ∧ (a.toNat - base) / 96 < 64) ∧
      recordWord base a = (a.toNat - base) % 96 / 2 ∧ recordWord base a < 48) ∧
    (a.toNat < base ∨ base + 6144 ≤ a.toNat → s.stageOf a = none)

/-! ### The port, the insert queue and the table reader -/

/-- R22: the run count after every grant, that a forwarded read leaves it, that it is 0 after reset and that no step takes it
past 8. That the end of a read under way, which is the row TABLE_READER_GRANT presented again, leaves it is the model's choice
in so far as that row stands for it (log 5, DESIGN CHOICE). -/
def Obligations.TheRunCountCountsHostGrants : Prop :=
  (∀ (s t : State) (a : Addr), s.cycle = .read a → s.granted = some .host →
    exec .hostReadGrant s = .next t → t.runCount = runAfterHost s) ∧
  (∀ (s t : State) (w : HostWrite), s.cycle = .write w → s.granted = some .host →
    exec .hostWriteGrant s = .next t → t.runCount = runAfterHost s) ∧
  (∀ s t : State, s.granted = some .queue → s.queue ≠ [] → exec .insertQueueDrain s = .next t → t.runCount = 0) ∧
  (∀ s t : State, s.granted = some .reader → (s.tableBase ≠ none ∨ ∃ k rest, s.jobs = .load k :: rest) →
    exec .tableReaderGrant s = .next t → t.runCount = 0) ∧
  (∀ s t : State, s.port ≠ .free → exec .tableReaderGrant s = .next t → t.runCount = s.runCount) ∧
  (∀ (s t : State) (a : Addr), exec (.hostRead a) s = .next t → t.runCount = s.runCount) ∧
  State.reset.runCount = 0 ∧
  ∀ (c : Instr) (s t : State), RunSound s → exec c s = .next t → RunSound t

/-- R20, R21: when a host cycle is a requester, and which requester is granted the free port. -/
def Obligations.TheArbiterGrantsByItsTable : Prop :=
  (∀ s : State, s.hostWaits = true ↔ (∃ a, s.cycle = .read a) ∨ ∃ w, s.cycle = .write w) ∧
  ∀ s : State, s.port = .free →
    (s.drain = true → s.granted = some .queue) ∧
    (s.drain = false → s.hostWaits = true → s.runCount < 8 → s.granted = some .host) ∧
    (s.drain = false → s.hostWaits = true → s.runCount = 8 → s.jobs ≠ [] → s.granted = some .reader) ∧
    (s.drain = false → s.hostWaits = true → s.runCount = 8 → s.jobs = [] → s.queue ≠ [] →
      s.granted = some .queue) ∧
    (s.drain = false → s.hostWaits = false → s.jobs ≠ [] → s.granted = some .reader) ∧
    (s.drain = false → s.hostWaits = false → s.jobs = [] → s.queue ≠ [] → s.granted = some .queue) ∧
    (s.drain = false → s.hostWaits = false → s.jobs = [] → s.queue = [] → s.granted = none)

/-- R23, R25: an accepted post stands at the tail with its data, an entry for its address is gone and the others keep their
order; drain mode turns on exactly when a new address brings the entries from 11 to 12. R26: a post that finds 16 entries
and none for its address waits, with what is left of its block's operation, and the block is busy; any other post, so one
whose address is queued in a full queue too, is accepted at once, nothing waits and the operation goes on. -/
def Obligations.APostJoinsTheTailOrWaits : Prop :=
  (∀ (q : List Post) (a : Addr),
     (queued q a = true ↔ ∃ p ∈ q, p.addr = a) ∧ (queued q a = false ↔ queuedData q a = none)) ∧
  (∀ (s : State) (b : Block), s.busy b = true ↔ ∃ w ∈ s.waiting, w.block = b) ∧
  (∀ (p : Post) (s : State),
     (s.accept p).queue = s.queue.filter (fun e => e.addr != p.addr) ++ [p] ∧
     (queued s.queue p.addr = false →
       (s.accept p).queue = s.queue ++ [p] ∧ (s.accept p).drain = (s.drain || s.queue.length == 11)) ∧
     (queued s.queue p.addr = true → (s.accept p).drain = s.drain) ∧
     queuedData (s.accept p).queue p.addr = some p.data ∧
     ∀ a, a ≠ p.addr → queuedData (s.accept p).queue a = queuedData s.queue a) ∧
  (∀ (b : Block) (c : Option Cont) (p : Post) (rest : List Act) (s : State),
     s.queue.length = 16 → queued s.queue p.addr = false →
     ∃ t, State.runActs b c (.post p :: rest) s = (t, false) ∧
       t = { s with waiting := s.waiting ++ [⟨b, p, rest, c⟩] } ∧ t.busy b = true) ∧
  ∀ (b : Block) (c : Option Cont) (p : Post) (rest : List Act) (s : State),
    queued s.queue p.addr = true ∨ s.queue.length < 16 →
    State.runActs b c (.post p :: rest) s = State.runActs b c rest (s.accept p) ∧
    (s.accept p).waiting = s.waiting ∧
    ((s.queue.map Post.addr).Nodup → queued s.queue p.addr = true → (s.accept p).queue.length = s.queue.length)

/-- INSERT_QUEUE_DRAIN (R23, R26, R27): the head entry is written with both lanes and drain mode turns off at four entries
left, nothing else changing while no post waits; with a full queue and posts waiting, the oldest waiting post takes the
freed place and the posts behind it wait on. The block of that post resumes its operation (R26, R51): a next post that finds
no place waits in its turn behind the others; the acts that are left are done in order; a sample whose measurement words are
posted goes on to its checks (R94), and an ended command to the head of PENDING (R142, R143). Where nothing of the operation
is left it ends, and at a Field Link Controller the events that arose meanwhile are marked as having waited (R152). Waiting
posts whose addresses are queued take no place: one drain accepts them and the oldest of the others behind them, or all, and
their blocks resume in that order (log 31, DEDUCED). Which byte receives which half of the data is log 4's (PRESUMED). -/
def Obligations.ADrainWritesTheHeadAndFreesAPlace : Prop :=
  (∀ (e : Post) (rest : List Post) (s : State),
     s.queue = e :: rest → s.granted = some .queue → s.waiting = [] →
     ∃ t, exec .insertQueueDrain s = .next t ∧
       t = { s with queue := rest, drain := s.drain && rest.length != 4, runCount := 0, mem := t.mem } ∧
       Memory.get t.mem (wordAddr e.addr).toNat = lowByte e.data ∧
       Memory.get t.mem ((wordAddr e.addr).toNat + 1) = highByte e.data ∧
       ∀ a, a ≠ (wordAddr e.addr).toNat → a ≠ (wordAddr e.addr).toNat + 1 → Memory.get t.mem a = Memory.get s.mem a) ∧
  (∀ (e : Post) (rest : List Post) (w : WaitingPost) (ws : List WaitingPost) (s : State),
     s.queue = e :: rest → rest.length = 15 → s.granted = some .queue → s.waiting = w :: ws →
     queued rest w.post.addr = false → w.rest = [] → w.cont = none →
     (w.block = .alert ∨ w.block = .report ∨ w.block = .passThrough) →
     ∃ t, exec .insertQueueDrain s = .next t ∧ t.queue = rest ++ [w.post] ∧ t.waiting = ws ∧
       t.drain = s.drain ∧ t.runCount = 0 ∧ t.lines = s.lines ∧ t.links = s.links ∧ t.cycle = s.cycle ∧
       Memory.get t.mem (wordAddr e.addr).toNat = lowByte e.data ∧
       Memory.get t.mem ((wordAddr e.addr).toNat + 1) = highByte e.data) ∧
  (∀ (e : Post) (rest : List Post) (first last ws : List WaitingPost) (s : State),
     s.queue = e :: rest → rest.length = 15 → (rest.map Post.addr).Nodup → s.granted = some .queue →
     s.waiting = first ++ last ++ ws → (∀ w ∈ first, queued rest w.post.addr = true) →
     (last = [] ∧ ws = [] ∨ ∃ w, last = [w] ∧ queued rest w.post.addr = false) →
     (∀ w ∈ first ++ last, (∀ p, Act.post p ∉ w.rest) ∧ w.cont = none ∧
       (w.block = .alert ∨ w.block = .report ∨ w.block = .passThrough ∨ ∃ n, w.block = .line n)) →
     ∃ u v, u =
         { s with
           queue := (State.postAll { s with queue := rest } ((first ++ last).map WaitingPost.post)).queue
           waiting := ws
           drain := s.drain
           runCount := 0
           mem := u.mem } ∧
       Memory.get u.mem (wordAddr e.addr).toNat = lowByte e.data ∧
       Memory.get u.mem ((wordAddr e.addr).toNat + 1) = highByte e.data ∧
       (∀ a, a ≠ (wordAddr e.addr).toNat → a ≠ (wordAddr e.addr).toNat + 1 → Memory.get u.mem a = Memory.get s.mem a) ∧
       v = (first ++ last).foldl (fun t w => w.rest.foldl State.perform t) u ∧
       ((∀ d x r b, v.cycle ≠ .answered d x r b) → exec .insertQueueDrain s = .next v)) ∧
  ∀ (e : Post) (rest : List Post) (w : WaitingPost) (ws : List WaitingPost) (s : State),
    s.queue = e :: rest → rest.length = 15 → s.granted = some .queue → s.waiting = w :: ws →
    queued rest w.post.addr = false →
    ∃ u, u = { s with queue := rest ++ [w.post], waiting := ws, runCount := 0, mem := u.mem } ∧
      Memory.get u.mem (wordAddr e.addr).toNat = lowByte e.data ∧
      Memory.get u.mem ((wordAddr e.addr).toNat + 1) = highByte e.data ∧
      (∀ a, a ≠ (wordAddr e.addr).toNat → a ≠ (wordAddr e.addr).toNat + 1 → Memory.get u.mem a = Memory.get s.mem a) ∧
      (∀ (p : Post) (more : List Act), w.rest = .post p :: more → queued u.queue p.addr = false →
        (∀ v x r b, s.cycle ≠ .answered v x r b) → (∀ n, s.noOwn n) →
        exec .insertQueueDrain s = .next { u with waiting := ws ++ [⟨w.block, p, more, w.cont⟩] }) ∧
      (∀ v : State, (∀ p, Act.post p ∉ w.rest) → w.cont = none → v = w.rest.foldl State.perform u →
        (w.block = .alert ∨ w.block = .report ∨ w.block = .passThrough → exec .insertQueueDrain s = .next v) ∧
        (∀ n, w.block = .line n → (∀ d x r b, v.cycle ≠ .answered d x r b) → exec .insertQueueDrain s = .next v) ∧
        (w.block = .config → (∀ n, v.noOwn n) → exec .insertQueueDrain s = .next v) ∧
        ∀ n, w.block = .link n → v.noOwn n → (∀ x ∈ ws, x.block ≠ .link n) →
          exec .insertQueueDrain s = .next (waitedOut v n)) ∧
      (∀ (n : LineNo) (x : Sample) (l : Line) (acts : List Act),
        w.block = .line n → w.rest = [] → w.cont = some (.sampleChecks n x) →
        (∀ d y r b, s.cycle ≠ .answered d y r b) → sampleChecks n (s.line n) x s.clock = (l, acts) →
        (acts = [] → exec .insertQueueDrain s = .next { u with lines := s.lines.set n l }) ∧
        ∀ (p : Post) (more : List Act), acts = .post p :: more → queued u.queue p.addr = false →
          exec .insertQueueDrain s =
            .next { u with lines := s.lines.set n l, waiting := ws ++ [⟨.line n, p, more, none⟩] }) ∧
      ∀ n : LineNo, w.block = .link n → w.rest = [] → w.cont = some (.takePending n) → s.noOwn n →
        (∀ x ∈ ws, x.block ≠ .link n) →
        ((s.link n).pending = [] ∨ (s.link n).wire ≠ .fill ∨ (s.link n).inFlight ≠ none ∨
            (s.link n).stopWaiting = true →
          exec .insertQueueDrain s = .next (waitedOut u n)) ∧
        ∀ (r : RequestKind) (more : List RequestKind) (p : Post),
          (s.link n).pending = r :: more → (s.link n).wire = .fill → (s.link n).inFlight = none →
          (s.link n).stopWaiting = false → p = lastCommand n r.command (s.link n).downlinkSeq .awaiting →
          (queued u.queue p.addr = true →
            exec .insertQueueDrain s =
              .next (waitedOut
                (State.accept
                  (State.sendCommand
                    { u with links := s.links.set n { s.link n with pending := more } } n r.command) p) n)) ∧
          (queued u.queue p.addr = false →
            exec .insertQueueDrain s =
              .next { State.sendCommand
                  { u with links := s.links.set n { s.link n with pending := more } } n r.command with
                waiting := ws ++ [⟨.link n, p, [], none⟩] })

/-- TABLE_READER_GRANT (R20, R30, R31, R32, R33, R35). At the grant the next word of the head job is read, the port is held
and nothing is delivered yet. The row presented again is the return of the read (in two steps: the model's choice, log 5):
for a BIND copy the word is placed in the copy (words 38 to 46 nowhere), the count rises, and the 48th word ends the job and
sends the line its job-complete event; for a load the word is placed in the load image, and the 12th ends the job and sends
its event; for a job withdrawn meanwhile nothing is delivered and the job leaves the list. The port is then free. -/
def Obligations.TheReaderDeliversItsNextWord : Prop :=
  (∀ (v : Word) (s : State), s.granted = some .reader →
     ((∃ n st tag k rest base, s.jobs = .bindCopy n st tag k :: rest ∧ s.tableBase = some base ∧
          v = readWord s.mem (BitVec.ofNat 20 (base + 96 * st.val + 2 * k))) ∨
       ∃ k rest, s.jobs = .load k :: rest ∧ v = readWord s.mem (BitVec.ofNat 20 (0xFF800 + 2 * k))) →
     exec .tableReaderGrant s = .next { s with port := .reading v false, runCount := 0 }) ∧
  (∀ (v : Word) (n : LineNo) (st : StageNo) (tag : Byte) (k : Nat) (rest : List Job) (f : Filling) (s : State),
     s.port = .reading v false → s.jobs = .bindCopy n st tag k :: rest → k < 48 → (s.line n).filling = some f →
     ∃ t g, exec .tableReaderGrant s = .next t ∧
       t = { s with port := .free, lines := t.lines, jobs := t.jobs } ∧
       (∀ m, m ≠ n → t.line m = s.line m) ∧
       t.line n = { s.line n with filling := some g, mail := (t.line n).mail } ∧
       (k < 47 → t.jobs = .bindCopy n st tag (k + 1) :: rest ∧ (t.line n).mail = (s.line n).mail) ∧
       (k = 47 → t.jobs = rest ∧
         (t.line n).mail = { (s.line n).mail with jobDone := (s.line n).mail.jobDone ++ [tag] }) ∧
       (k < 38 → g.words.toList.getD k 0 = v ∧ g.check = f.check ∧
         ∀ j, j ≠ k → g.words.toList.getD j 0 = f.words.toList.getD j 0) ∧
       (38 ≤ k → k < 47 → g = f) ∧
       (k = 47 → g.words = f.words ∧ g.check = v)) ∧
  (∀ (v : Word) (k : Nat) (rest : List Job) (i : Vector Word 12) (s : State),
     s.port = .reading v false → s.jobs = .load k :: rest → k < 12 → s.config.loadImage = some i →
     ∃ t j, exec .tableReaderGrant s = .next t ∧
       t =
         { s with
           port := .free
           config := { s.config with loadImage := some j, jobDone := t.config.jobDone }
           jobs := t.jobs } ∧
       j.toList.getD k 0 = v ∧
       (∀ m, m ≠ k → j.toList.getD m 0 = i.toList.getD m 0) ∧
       (k < 11 → t.jobs = .load (k + 1) :: rest ∧ t.config.jobDone = s.config.jobDone) ∧
       (k = 11 → t.jobs = rest ∧ t.config.jobDone = s.config.jobDone + 1)) ∧
  ∀ (v : Word) (j : Job) (rest : List Job) (s : State), s.port = .reading v true → s.jobs = j :: rest →
    exec .tableReaderGrant s = .next { s with port := .free, jobs := rest }

/-! ### Guard commands and the Alert Controller -/

/-- GUARD_NO_COMMAND and LINE_NO_COMMAND (R9, R10, R61, R156) change and post nothing; GUARD_UNKNOWN_COMMAND and
LINE_UNKNOWN_COMMAND post the outcome UNKNOWN and change nothing else; the write then asks for the port. -/
def Obligations.NoCommandAndUnknownCodes : Prop :=
  (∀ (code arg : Byte) (s : State), s.cycle = .idle → s.busy .alert = false →
     exec (.guardNoCommand arg) s = .next { s with cycle := .write (fullWrite 0xFF840 (wordOf 0 arg)) } ∧
     (5 ≤ code.toNat → s.room 1 →
       exec (.guardUnknownCommand code arg) s =
         .next (State.postAll { s with cycle := .write (fullWrite 0xFF840 (wordOf code arg)) }
           [statusWord 1 (wordOf code 0x07)]))) ∧
  (∀ (n : LineNo) (code arg : Byte) (s : State), s.cycle = .idle → s.busy (.line n) = false →
     exec (.lineNoCommand n arg) s = .next { s with cycle := .write (fullWrite (lineAddr n 0) (wordOf 0 arg)) } ∧
     (9 ≤ code.toNat → s.room 1 →
       exec (.lineUnknownCommand n code arg) s =
         .next (State.postAll { s with cycle := .write (fullWrite (lineAddr n 0) (wordOf code arg)) }
           [lineWord n 5 (wordOf code 12)])))

/-- ALERT_RAISE (R154, R155): a raise of the class is taken from any place among those of others (log 29, DEDUCED), the oldest
of its class (log 39, DEDUCED); a class already pending has no effect; another joins the set, ALERT is judged afresh, status
word 2 is posted, and TRIP starts the acknowledge timer where an image is loaded. ALERT is on while TRIP or
COMMUNICATION is pending, or another class whose bit of word 7 is clear; with no image loaded no class is masked. ACKNOWLEDGE (R157): refused
NOTHING_PENDING on the empty set; otherwise the pending class of highest priority is removed, ALERT is judged afresh, the
acknowledge timer stops with TRIP, and status words 2 and 1 are posted. Status word 2 holds the classes in bits 0 to 5 and ALERT
in bit 15 (11.2). -/
def Obligations.RaisesAndAcknowledgementsChangeThePendingSet : Prop :=
  (∀ (c : AlertClass) (ofTrip : Bool) (before rest : List Raise) (s : State),
     s.busy .alert = false → s.room 1 → s.alert.raises = before ++ ⟨c, ofTrip⟩ :: rest → (∀ r ∈ before, r.cls ≠ c) →
     (s.alert.pending.getLsbD c.bit = true →
       exec (.alertRaise c) s = .next { s with alert := { s.alert with raises := before ++ rest } }) ∧
     (s.alert.pending.getLsbD c.bit = false →
       ∃ t, exec (.alertRaise c) s = .next t ∧
         t = State.postAll { s with alert := t.alert } [statusWord 2 (alertPendingWord t.alert)] ∧
         t.alert =
           { s.alert with
             raises := before ++ rest
             pending := t.alert.pending
             alert := t.alert.alert
             ackTimer := t.alert.ackTimer } ∧
         (∀ k, t.alert.pending.getLsbD k = (s.alert.pending.getLsbD k || k == c.bit)) ∧
         t.alert.alert = alertLevel t.alert.pending s.config.mask ∧
         t.alert.ackTimer = (if c = .trip ∧ s.config.image ≠ none
           then .running (1000 * (s.config.word 6).toNat) else s.alert.ackTimer))) ∧
  (∀ (arg : Byte) (s : State), s.cycle = .idle → s.busy .alert = false → s.room 2 →
     (s.alert.pending = 0 →
       exec (.acknowledge arg) s =
         .next (State.postAll { s with cycle := .write (fullWrite 0xFF840 (wordOf 1 arg)) } [statusWord 1 0x0103])) ∧
     ∀ c : AlertClass, s.alert.pending.getLsbD c.bit = true → (∀ k, k < c.bit → s.alert.pending.getLsbD k = false) →
       ∃ t, exec (.acknowledge arg) s = .next t ∧
         t = State.postAll
           { s with cycle := .write (fullWrite 0xFF840 (wordOf 1 arg)), alert := t.alert }
           [statusWord 2 (alertPendingWord t.alert), statusWord 1 (BitVec.ofNat 16 (0x0101 + 16 * (c.bit + 1)))] ∧
         t.alert = { s.alert with pending := t.alert.pending, alert := t.alert.alert, ackTimer := t.alert.ackTimer } ∧
         (∀ k, t.alert.pending.getLsbD k = (s.alert.pending.getLsbD k && k != c.bit)) ∧
         t.alert.alert = alertLevel t.alert.pending s.config.mask ∧
         t.alert.ackTimer = (if c = .trip then .stopped else s.alert.ackTimer)) ∧
  (∀ (a : AlertUnit) (k : Nat),
     (alertPendingWord a).getLsbD k = (decide (k < 6) && a.pending.getLsbD k || k == 15 && a.alert)) ∧
  ([.trip, .communication, .stageEnd, .link, .refusal, .ring] : List AlertClass).map AlertClass.bit =
    [0, 1, 2, 3, 4, 5] ∧
  (∀ (p : BitVec 6) (m : Word),
     alertLevel p m = true ↔
       p.getLsbD 0 = true ∨ p.getLsbD 1 = true ∨
         ∃ k, 2 ≤ k ∧ k < 6 ∧ p.getLsbD k = true ∧ m.getLsbD k = false) ∧
  ∀ c : ConfigUnit, (c.image = none → c.mask = 0) ∧ ∀ i, c.image = some i → c.mask = i[7]

/-- STOP_ALL (R159, R162): from released it asserts PLANT STOP now, posts, sends the event to all eight supervisors and
reports; from cause RESET it changes the cause; any other cause it keeps. ACK_TIMEOUT (R160, R162): the timer stops; PLANT
STOP, if released, is asserted with cause ACK_TIMEOUT, posted, sent to all eight supervisors and reported. The report counts
the lines INJECTING or CLOSING (R162). -/
def Obligations.PlantStopIsAssertedByStopAllAndTimeout : Prop :=
  (∀ s : State, s.flowingLines =
     (([0, 1, 2, 3, 4, 5, 6, 7] : List LineNo).filter fun n =>
       (s.line n).state = .injecting ∨ (s.line n).state = .closing).length) ∧
  (∀ (arg : Byte) (s : State), s.cycle = .idle → s.busy .alert = false → s.room 2 →
     (s.alert.plantStop = none →
       exec (.stopAll arg) s =
         .next (State.postAll
           { s with
             cycle := .write (fullWrite 0xFF840 (wordOf 2 arg))
             alert := { s.alert with plantStop := some .stopAll, assertedAt := s.clock }
             lines := s.lines.map fun l =>
               { l with mail := { l.mail with plantStops := l.mail.plantStops ++ [.stopAll] } }
             report := s.reported
               { kind := .plantStop, detail := 2, time := s.clock,
                 valueA := longOf 1 (BitVec.ofNat 16 s.flowingLines), valueB := longOf (alertPendingWord s.alert) 0 } }
           [statusWord 3 (0xA000 ||| (lowWord s.clock &&& 0x0FFF)), statusWord 1 0x0201])) ∧
     (s.alert.plantStop = some .reset →
       exec (.stopAll arg) s =
         .next (State.postAll
           { s with
             cycle := .write (fullWrite 0xFF840 (wordOf 2 arg))
             alert := { s.alert with plantStop := some .stopAll } }
           [statusWord 3 (0xA000 ||| (lowWord s.alert.assertedAt &&& 0x0FFF)), statusWord 1 0x0201])) ∧
     (s.alert.plantStop = some .stopAll ∨ s.alert.plantStop = some .ackTimeout →
       exec (.stopAll arg) s =
         .next (State.postAll { s with cycle := .write (fullWrite 0xFF840 (wordOf 2 arg)) } [statusWord 1 0x0201]))) ∧
  (∀ s : State, s.busy .alert = false → s.room 1 → s.alert.ackTimer = .running 0 →
     (s.alert.plantStop ≠ none → exec .ackTimeout s = .next { s with alert := { s.alert with ackTimer := .stopped } }) ∧
     (s.alert.plantStop = none →
       exec .ackTimeout s =
         .next (State.postAll
           { s with
             alert := { s.alert with ackTimer := .stopped, plantStop := some .ackTimeout, assertedAt := s.clock }
             lines := s.lines.map fun l =>
               { l with mail := { l.mail with plantStops := l.mail.plantStops ++ [.ackTimeout] } }
             report := s.reported
               { kind := .plantStop, detail := 3, time := s.clock,
                 valueA := longOf 1 (BitVec.ofNat 16 s.flowingLines), valueB := longOf (alertPendingWord s.alert) 0 } }
           [statusWord 3 (0xB000 ||| (lowWord s.clock &&& 0x0FFF))])))

/-- RELEASE_STOP (R161, R162): DONE with nothing changed while released; refused STOP_CONDITIONS without a loaded image, with
TRIP pending, with a line's TRIP report on its way to the pending set (log 39) or with a line INJECTING or CLOSING; otherwise,
so also while the raise of a PLANT_STOP report waits to be taken, PLANT STOP is released, posted and reported. LOAD_NOTICE (R155, R158, R162): ALERT is judged under the new mask and posted
where it changes; a plant stop with cause RESET is released, posted and reported; any other plant stop stays. That status word
2 is posted before status word 3 in one notice is the model's choice (log 37). -/
def Obligations.PlantStopIsReleasedByReleaseStopAndLoadNotice : Prop :=
  ([.reset, .stopAll, .ackTimeout] : List PlantCause).map PlantCause.code = [1, 2, 3] ∧
  (∀ (arg : Byte) (s : State), s.cycle = .idle → s.busy .alert = false → s.room 2 →
     (s.alert.plantStop = none →
       exec (.releaseStop arg) s =
         .next (State.postAll { s with cycle := .write (fullWrite 0xFF840 (wordOf 3 arg)) } [statusWord 1 0x0301])) ∧
     (s.alert.plantStop ≠ none →
       (s.config.image = none ∨ s.alert.pending.getLsbD 0 = true ∨ tripComes s ∨
         ∃ n, (s.line n).state.flowing = true) →
       exec (.releaseStop arg) s =
         .next (State.postAll { s with cycle := .write (fullWrite 0xFF840 (wordOf 3 arg)) } [statusWord 1 0x0304])) ∧
     ∀ c : PlantCause, s.alert.plantStop = some c → s.config.image ≠ none → s.alert.pending.getLsbD 0 = false →
       ¬ tripComes s → (∀ n, (s.line n).state.flowing = false) →
       exec (.releaseStop arg) s =
         .next (State.postAll
           { s with
             cycle := .write (fullWrite 0xFF840 (wordOf 3 arg))
             alert := { s.alert with plantStop := none }
             report := s.reported
               { kind := .plantStop, detail := c.code.setWidth 7, time := s.clock, valueA := 0,
                 valueB := s.alert.assertedAt } }
           [statusWord 3 (lowWord s.alert.assertedAt &&& 0x0FFF), statusWord 1 0x0301])) ∧
  (∀ (k : Nat) (s : State), s.busy .alert = false → s.room 2 → s.alert.loadNotices = k + 1 →
     ∃ (t : State) (a : AlertUnit), exec .loadNotice s = .next t ∧
       a = { s.alert with loadNotices := k, alert := alertLevel s.alert.pending s.config.mask } ∧
       (s.alert.plantStop ≠ some .reset →
         t = State.postAll { s with alert := a }
           (if a.alert = s.alert.alert then [] else [statusWord 2 (alertPendingWord a)])) ∧
       (s.alert.plantStop = some .reset →
         t = State.postAll
           { s with
             alert := { a with plantStop := none }
             report := s.reported
               { kind := .plantStop, detail := 1, time := s.clock, valueA := 0, valueB := s.alert.assertedAt } }
           ((if a.alert = s.alert.alert then [] else [statusWord 2 (alertPendingWord a)]) ++
             [statusWord 3 (lowWord s.alert.assertedAt &&& 0x0FFF)])))

/-! ### Line commands -/

/-- BIND accepted (R62, R63, R44): every test holds, so the stage is claimed for the line, the line is BINDING with its
copy tag raised, the copy job stands at the end of the reader's list, and STATE, REASON and IN_PROGRESS are posted. -/
def Obligations.BindClaimsItsStage : Prop :=
  ∀ (n : LineNo) (arg : Byte) (st : StageNo) (s : State),
    s.cycle = .idle → s.busy (.line n) = false → s.room 3 →
    (s.line n).state = .vacant → s.config.enabled n = true → s.config.load ≠ .loading → s.tableBase ≠ none →
    arg.toNat = st.val → s.bindingOf st = none →
    exec (.bind n arg) s =
      .next (State.postAll
        { s with
          cycle := .write (fullWrite (lineAddr n 0) (wordOf 1 arg))
          binding := s.binding.set st (some ⟨n, .binding⟩)
          jobs := s.jobs ++ [.bindCopy n st ((s.line n).copyTag + 1) 0]
          lines := s.lines.set n
            { s.line n with
              state := .binding, stage := some st, copyTag := (s.line n).copyTag + 1, copy := none,
              filling := some {} } }
        [lineWord n 4 (wordOf arg (if (s.line n).riseFlag then 0x81 else 0x01)), lineWord n 6 0,
          lineWord n 5 0x0102])

/-- START accepted (R64, R53, R54): from BOUND with the link UP, PLANT STOP released and LOCAL_STOP clear, the line
enters INJECTING with flow 0, an empty window and the ramp timer started for a target above 0; a MIX and then a
SETPOINT are requested. -/
def Obligations.StartEntersInjecting : Prop :=
  ∀ (n : LineNo) (arg : Byte) (s : State), s.cycle = .idle → s.busy (.line n) = false → s.room 4 →
    (s.line n).state = .bound → (s.line n).linkCopy = .up → s.alert.plantStop = none →
    (s.line n).flags.getLsbD 1 = false →
    ∃ l : Line, l =
      { s.line n with
        state := .injecting, admitted := 0, window := [],
        ramp := if (s.line n).flowTarget = 0 then .stopped else .running 1000,
        settle := .stopped, baseline := none, riseFlag := false, holdReason := none } ∧
    exec (.start n arg) s =
      .next (State.postAll
        { s with
          cycle := .write (fullWrite (lineAddr n 0) (wordOf 2 arg))
          lines := s.lines.set n l
          links := s.links.set n
            { s.link n with
              arrivals := (s.link n).arrivals ++ [⟨.request .mix, false⟩, ⟨.request .setpoint, false⟩] } }
        [lineWord n 15 0, lineWord n 4 (wordOf (stageByte l.stage) 3), lineWord n 6 0, lineWord n 5 0x0201])

/-- HOLD accepted (R65, R55, R53): from INJECTING or CLOSING the line enters HOLDING with reason HOST, flow 0, the ramp and
dwell timers stopped and the settle timer started, and a SETPOINT is requested. END accepted (R67, R56, R104): from those
states, BOUND and HOLDING the line enters ENDED with reason HOST_END, a STOP is requested and STAGE_ENDED is reported. -/
def Obligations.HoldAndEndStopAFlowingLine : Prop :=
  (∀ (n : LineNo) (arg : Byte) (s : State), s.cycle = .idle → s.busy (.line n) = false → s.room 5 →
     (s.line n).state = .injecting ∨ (s.line n).state = .closing →
     ∃ l : Line, l =
       { s.line n with
         state := .holding, admitted := 0, ramp := .stopped, dwell := .stopped, holdReason := some .host,
         settle := .running (1000 * ((s.line n).stageWord 37).toNat), baseline := none, riseFlag := false } ∧
     exec (.hold n arg) s =
       .next (State.postAll
         { s with
           cycle := .write (fullWrite (lineAddr n 0) (wordOf 3 arg))
           lines := s.lines.set n l
           links := s.links.set n
             { s.link n with arrivals := (s.link n).arrivals ++ [⟨.request .setpoint, false⟩] } }
         ([lineWord n 15 0] ++ (if (s.line n).state = .closing then [lineWord n 19 0] else []) ++
           [lineWord n 4 (wordOf (stageByte l.stage) 5), lineWord n 6 0x0010, lineWord n 5 0x0301]))) ∧
  (∀ (n : LineNo) (arg : Byte) (s : State), s.cycle = .idle → s.busy (.line n) = false → s.room 5 →
     (s.line n).state = .bound ∨ (s.line n).state = .injecting ∨ (s.line n).state = .closing ∨
       (s.line n).state = .holding →
     exec (.endStage n arg) s =
       .next (State.postAll
         { endedState s n .hostEnd with cycle := .write (fullWrite (lineAddr n 0) (wordOf 5 arg)) }
         ([lineWord n 15 0] ++ (if (s.line n).state = .closing then [lineWord n 19 0] else []) ++
           [lineWord n 4 (stateWord (endedLine (s.line n) .hostEnd)), lineWord n 6 0x0023, lineWord n 5 0x0501])))

/-- RESUME accepted (R66, R110): from HOLDING with the conditions of START, the line ends VOLUME_CAP at a take of Vmax,
ends INTENSITY with the intensity ceiling below the refusal pressure, and otherwise enters INJECTING with a SETPOINT
request and no MIX. The outcome is DONE in all three. -/
def Obligations.ResumeInjectsOrEnds : Prop :=
  ∀ (n : LineNo) (arg : Byte) (s : State), s.cycle = .idle → s.busy (.line n) = false → s.room 4 →
    (s.line n).state = .holding → (s.line n).linkCopy = .up → s.alert.plantStop = none →
    (s.line n).flags.getLsbD 1 = false →
    (∀ r, ((s.line n).stageWord 12 ≤ (s.line n).take ∧ r = .volumeCap ∨
        (s.line n).take < (s.line n).stageWord 12 ∧ (s.line n).intensityCeiling < (s.line n).stageWord 5 ∧
          r = .intensity) →
      exec (.resume n arg) s =
        .next (State.postAll
          { endedState s n r with cycle := .write (fullWrite (lineAddr n 0) (wordOf 4 arg)) }
          [lineWord n 15 0, lineWord n 4 (stateWord (endedLine (s.line n) r)), lineWord n 6 (wordOf 0 r.code),
            lineWord n 5 0x0401])) ∧
    ((s.line n).take < (s.line n).stageWord 12 → (s.line n).stageWord 5 ≤ (s.line n).intensityCeiling →
      exec (.resume n arg) s =
        .next (State.postAll
          { s with
            cycle := .write (fullWrite (lineAddr n 0) (wordOf 4 arg))
            lines := s.lines.set n
              { s.line n with
                state := .injecting, admitted := 0, window := [],
                ramp := if (s.line n).flowTarget = 0 then .stopped else .running 1000,
                settle := .stopped, baseline := none, riseFlag := false, holdReason := none }
            links := s.links.set n
              { s.link n with arrivals := (s.link n).arrivals ++ [⟨.request .setpoint, false⟩] } }
          [lineWord n 15 0, lineWord n 4 (wordOf (stageByte (s.line n).stage) 3), lineWord n 6 0,
            lineWord n 5 0x0401]))

/-- RELEASE accepted (R68, R57, R50, R47, R33): the stage's entry becomes none, the context returns to its value of VACANT
but for the copy tag, the last sample sequence, the station flags and the link state copy, and a copy in flight leaves
the reader's list; a copy at its head whose word is being read (log 5) stays until that read ends, its word withdrawn. An
ended or tripped line whose STOP its controller has not yet taken holds the RELEASE until it has (R87, log 38). -/
def Obligations.ReleaseReturnsTheLineToVacant : Prop :=
  ∀ (n : LineNo) (arg : Byte) (s : State), s.cycle = .idle → s.busy (.line n) = false →
    (∀ (st : StageNo) (ph : Phase) (mine : Job → Bool) (port : PortGrant) (jobs : List Job), s.room 3 →
      (s.line n).state = .binding ∨ (s.line n).state = .bound ∨
        ((s.line n).state = .ended ∨ (s.line n).state = .tripped) ∧
          (∀ a ∈ (s.link n).arrivals, a.input ≠ .stop) →
      (s.line n).stage = some st → s.bindingOf st = some ⟨n, ph⟩ →
      (∀ m st' tag k, mine (.bindCopy m st' tag k) = (m == n)) → (∀ k, mine (.load k) = false) →
      ((s.line n).state ≠ .binding ∧ port = s.port ∧ jobs = s.jobs ∨
        (s.line n).state = .binding ∧ (s.port = .free ∨ ∀ j ∈ s.jobs.head?, mine j = false) ∧ port = s.port ∧
          jobs = s.jobs.filter (fun j => !mine j) ∨
        (s.line n).state = .binding ∧ ∃ v gone j rest, s.port = .reading v gone ∧ s.jobs = j :: rest ∧
          mine j = true ∧ port = .reading v true ∧ jobs = j :: rest.filter (fun j => !mine j)) →
      exec (.release n arg) s =
        .next (State.postAll
          { s with
            cycle := .write (fullWrite (lineAddr n 0) (wordOf 6 arg))
            binding := s.binding.set st none
            port := port
            jobs := jobs
            lines := s.lines.set n
              { ({} : Line) with
                copyTag := (s.line n).copyTag, lastSampleSeq := (s.line n).lastSampleSeq, flags := (s.line n).flags,
                linkCopy := (s.line n).linkCopy, mail := (s.line n).mail } }
          [lineWord n 4 0xFF00, lineWord n 6 0, lineWord n 5 0x0601])) ∧
    ((s.line n).state = .ended ∨ (s.line n).state = .tripped → (∃ a ∈ (s.link n).arrivals, a.input = .stop) →
      exec (.release n arg) s =
        .next { s with cycle := .held (fullWrite (lineAddr n 0) (wordOf 6 arg)) })

/-- RESYNC and REARM_FLAGS (R69, R70): on an enabled line, in every state, the controller is asked and the outcome is
DONE; on a disabled line they are refused LINE_DISABLED. -/
def Obligations.ResyncAndRearmAskTheController : Prop :=
  ∀ (n : LineNo) (arg : Byte) (s : State), s.cycle = .idle → s.busy (.line n) = false → s.room 1 →
    (s.config.enabled n = true →
      exec (.resync n arg) s =
        .next (State.postAll
          { s with
            cycle := .write (fullWrite (lineAddr n 0) (wordOf 7 arg))
            links := s.links.set n { s.link n with arrivals := (s.link n).arrivals ++ [⟨.restart, false⟩] } }
          [lineWord n 5 0x0701]) ∧
      exec (.rearmFlags n arg) s =
        .next (State.postAll
          { s with
            cycle := .write (fullWrite (lineAddr n 0) (wordOf 8 arg))
            links := s.links.set n { s.link n with arrivals := (s.link n).arrivals ++ [⟨.rearm, false⟩] } }
          [lineWord n 5 0x0801])) ∧
    (s.config.enabled n = false →
      exec (.resync n arg) s =
        .next (State.postAll { s with cycle := .write (fullWrite (lineAddr n 0) (wordOf 7 arg)) }
          [lineWord n 5 0x0704]) ∧
      exec (.rearmFlags n arg) s =
        .next (State.postAll { s with cycle := .write (fullWrite (lineAddr n 0) (wordOf 8 arg)) }
          [lineWord n 5 0x0804]))

/-- A line command whose test fails posts the outcome of the first failing test and changes nothing else (R61, R62, R64
to R68); its write asks for the port. -/
def Obligations.ADeclinedLineCommandOnlyPostsItsOutcome : Prop :=
  ∀ (n : LineNo) (c : Instr) (code arg o : Byte) (s : State),
    s.cycle = .idle → s.busy (.line n) = false → s.room 1 → declined s n c = some (code, arg, o) →
    exec c s =
      .next (State.postAll { s with cycle := .write (fullWrite (lineAddr n 0) (wordOf code arg)) }
        [lineWord n 5 (wordOf code o)])

/-! ### Setpoint writes -/

/-- FLOW_TARGET in a state that admits it (R77, R11): memory is to receive the lesser of the value and max flow, which is the
flow target; in INJECTING and CLOSING a target below the admitted flow lowers it at once, with a post and a SETPOINT, a
target at or below it stops the ramp timer, and one above it leaves the timer running. CEILING_REQUEST (R82, R81): the
request is the lesser of the value and Pmax; the effective ceiling is the lesser of it and the intensity ceiling, posted
where it changes; while flowing, an effective ceiling other than the last sent requests a SETPOINT. -/
def Obligations.FlowTargetAndCeilingRequestAreClampedAndTaken : Prop :=
  (∀ (n : LineNo) (v t : Word) (s : State), s.cycle = .idle → s.busy (.line n) = false → s.room 1 →
     t = (if v ≤ (s.line n).stageWord 8 then v else (s.line n).stageWord 8) →
     ((s.line n).state = .bound ∨ (s.line n).state = .holding →
       exec (.flowTarget n v) s =
         .next { s with
           cycle := .write (fullWrite (lineAddr n 1) t)
           lines := s.lines.set n { s.line n with flowTarget := t } }) ∧
     ((s.line n).state = .injecting ∨ (s.line n).state = .closing →
       (t < (s.line n).admitted →
         exec (.flowTarget n v) s =
           .next (State.postAll
             { s with
               cycle := .write (fullWrite (lineAddr n 1) t)
               lines := s.lines.set n { s.line n with flowTarget := t, admitted := t, ramp := .stopped }
               links := s.links.set n
                 { s.link n with arrivals := (s.link n).arrivals ++ [⟨.request .setpoint, false⟩] } }
             [lineWord n 15 t])) ∧
       ((s.line n).admitted ≤ t →
         exec (.flowTarget n v) s =
           .next { s with
             cycle := .write (fullWrite (lineAddr n 1) t)
             lines := s.lines.set n
               { s.line n with
                 flowTarget := t
                 ramp := if t = (s.line n).admitted then .stopped
                   else if (s.line n).ramp = .stopped then .running 1000 else (s.line n).ramp } }))) ∧
  (∀ (n : LineNo) (v r e : Word) (s : State), s.cycle = .idle → s.busy (.line n) = false → s.room 1 →
     (s.line n).state = .bound ∨ (s.line n).state = .injecting ∨ (s.line n).state = .closing ∨
       (s.line n).state = .holding →
     r = (if v ≤ (s.line n).stageWord 3 then v else (s.line n).stageWord 3) →
     e = (if r ≤ (s.line n).intensityCeiling then r else (s.line n).intensityCeiling) →
     exec (.ceilingRequest n v) s =
       .next (State.postAll
         { s with
           cycle := .write (fullWrite (lineAddr n 2) r)
           lines := s.lines.set n { s.line n with ceilingRequest := r, effectiveCeiling := e }
           links := if (s.line n).state.flowing = true ∧ e ≠ (s.line n).lastSentCeiling
             then s.links.set n
               { s.link n with arrivals := (s.link n).arrivals ++ [⟨.request .setpoint, false⟩] }
             else s.links }
         (if e = (s.line n).effectiveCeiling then [] else [lineWord n 14 e])))

/-- MIX_REQUEST (R88, R89, R91): a write of the present index changes nothing; a write of the next index, in INJECTING or
HOLDING, below the mix count and with the step volume placed, is admitted: the index and the take at step start move,
a MIX is requested and MIX_STEPPED is reported. The words of the stage copy in force are read, and of the mix at index i the
code is the low byte of word 24 + 2i and the step volume is word 25 + 2i (R38). -/
def Obligations.AMixStepIsAdmittedInOrder : Prop :=
  (∀ (l : Line) (words : Vector Word 38) (k : Fin 38), l.copy = some words → l.stageWord k = words[k]) ∧
  (∀ (l : Line) (i : Word) (k : Fin 38),
     (k.val = 24 + 2 * i.toNat → l.mixCode i = lowByte (l.stageWord k)) ∧
     (k.val = 25 + 2 * i.toNat → l.stepVolume i = l.stageWord k)) ∧
  ∀ (n : LineNo) (v : Word) (s : State), s.cycle = .idle → s.busy (.line n) = false →
    ((s.line n).state = .bound ∨ (s.line n).state = .injecting ∨ (s.line n).state = .closing ∨
        (s.line n).state = .holding →
      v = (s.line n).mixIndex →
      exec (.mixRequest n v) s = .next { s with cycle := .write (fullWrite (lineAddr n 3) v) }) ∧
    ((s.line n).state = .injecting ∨ (s.line n).state = .holding →
      v.toNat = (s.line n).mixIndex.toNat + 1 → v.toNat < ((s.line n).stageWord 23).toNat →
      ((s.line n).stepVolume (s.line n).mixIndex).toNat ≤ ((s.line n).take - (s.line n).takeAtStep).toNat →
      exec (.mixRequest n v) s =
        .next { s with
          cycle := .write (fullWrite (lineAddr n 3) v)
          lines := s.lines.set n { s.line n with mixIndex := v, takeAtStep := (s.line n).take }
          links := s.links.set n { s.link n with arrivals := (s.link n).arrivals ++ [⟨.request .mix, false⟩] }
          report := s.reported
            { kind := .mixStepped, line := lineByte n, stage := stageByte (s.line n).stage, time := s.clock,
              valueA := longOf v (((s.line n).mixCode v).setWidth 16),
              valueB := longOf (s.line n).take ((s.line n).take - (s.line n).takeAtStep) } })

/-- Setpoint writes answered as refused (R76 to R78, R83, R89, R90, R11, R14, R15): memory is to receive 0, or the mix
index for MIX REQUEST; no field of the line changes; the record is replaced and posted and the report handed over before
the write asks for the port. The states that admit a setpoint are BOUND, INJECTING, CLOSING and HOLDING. -/
def Obligations.ASetpointOutOfPlaceIsAnsweredAsRefused : Prop :=
  (∀ st : LineState,
     st.admits = true ↔ st = .bound ∨ st = .injecting ∨ st = .closing ∨ st = .holding) ∧
  ∀ (n : LineNo) (v : Word) (s : State), s.cycle = .idle → s.busy (.line n) = false → s.room 3 →
    ∀ (c : Instr) (word : Nat) (value : Word) (r : RefuseReason),
      ((s.line n).state.admits = false ∧ r = .lineState ∧
          (c = .flowTarget n v ∧ word = 1 ∧ value = 0 ∨ c = .ceilingRequest n v ∧ word = 2 ∧ value = 0 ∨
            c = .mixRequest n v ∧ word = 3 ∧ value = (s.line n).mixIndex) ∨
        (s.line n).state.admits = true ∧ r = .mixOrder ∧ c = .mixRequest n v ∧ word = 3 ∧
          value = (s.line n).mixIndex ∧ v ≠ (s.line n).mixIndex ∧
          ((s.line n).state = .bound ∨ (s.line n).state = .closing ∨ v.toNat ≠ (s.line n).mixIndex.toNat + 1 ∨
            ((s.line n).stageWord 23).toNat ≤ v.toNat ∨
            ((s.line n).take - (s.line n).takeAtStep).toNat < ((s.line n).stepVolume (s.line n).mixIndex).toNat)) →
      exec c s =
        .next (State.postAll
          { s with
            cycle := .write (fullWrite (lineAddr n word) value)
            refusal := ⟨some r, lineAddr n word⟩
            report := s.reported
              { kind := .writeRefused, line := lineByte n, stage := stageByte (s.line n).stage, time := s.clock,
                valueA := (lineAddr n word).setWidth 32, valueB := longOf v (wordOf 3 (lowByte r.code)) } }
          (refusalWords (lineAddr n word) r))

/-- CONSUMER (R12): with a ring placed, no placement pending and no post of the word queued, a value below the ring size
and not past the producer, counted from the old consumer, becomes the consumer index and asks for the port; any other
write is refused outright with CONSUMER_RANGE. -/
def Obligations.AConsumerWriteIsCheckedAgainstTheRing : Prop :=
  ∀ (v : Word) (s : State), s.cycle = .idle → s.room 3 →
    (∀ ring : Ring, s.report.ring = some ring → s.report.consumer < ring.size → s.report.producer < ring.size →
      s.report.placement = false → queued s.queue (statusAddr 5) = false → v.toNat < ring.size →
      (v.toNat + ring.size - s.report.consumer) % ring.size ≤
        (s.report.producer + ring.size - s.report.consumer) % ring.size →
      exec (.consumer v) s =
        .next { s with
          cycle := .write (fullWrite 0xFF84A v)
          report := { s.report with consumer := v.toNat } }) ∧
    ((s.report.ring = none ∨ s.report.placement = true ∨ queued s.queue (statusAddr 5) = true ∨
        ∃ ring : Ring, s.report.ring = some ring ∧ s.report.consumer < ring.size ∧
          s.report.producer < ring.size ∧
          (ring.size ≤ v.toNat ∨
            (s.report.producer + ring.size - s.report.consumer) % ring.size <
              (v.toNat + ring.size - s.report.consumer) % ring.size)) →
      exec (.consumer v) s =
        .next (State.postAll
          { s with
            refusal := ⟨some .consumerRange, 0xFF84A⟩
            report := s.reported
              { kind := .writeRefused, line := 0xFF, stage := 0xFF, time := s.clock, valueA := 0x000FF84A,
                valueB := longOf v 0x0304 } }
          (refusalWords 0xFF84A .consumerRange)))

/-! ### Events at a Line Supervisor -/

/-- BIND_COPY_COMPLETE (R72, R73, R46, R47, R50): an event whose tag is not the line's, or of a line not BINDING, is
discarded; a copy that passes validation goes in force, the entry is confirmed, the line is BOUND with its settle timer
started, and BIND_DONE is reported; a copy that fails returns the line to VACANT with the leave reason and the entry
cleared, and BIND_FAILED is reported. Validation (R36 to R40) passes exactly where the check sum is 0 and every word holds its
condition; a wrong sum fails at word 47 with the sum, and otherwise the first word that fails is named with its value, Imax
with the 32-bit value of words 10 and 11. -/
def Obligations.TheEndOfACopyBindsOrFreesTheLine : Prop :=
  (∀ (st : StageNo) (f : Filling) (v : Nat → Nat), (∀ k, v k = (f.words.toList.getD k 0).toNat) →
    (validateCopy st f = none ↔ f.sum = 0 ∧ ∀ k, k < 38 → recordWordHolds st v k) ∧
    (f.sum ≠ 0 → validateCopy st f = some ⟨.recordCheck, 47, f.sum.setWidth 32⟩) ∧
    ∀ k, k < 38 → f.sum = 0 → ¬ recordWordHolds st v k → (∀ j, j < k → recordWordHolds st v j) →
      validateCopy st f =
        some ⟨.recordField, k,
          if k = 10 then longOf f.words[10] f.words[11] else (f.words.toList.getD k 0).setWidth 32⟩) ∧
  ∀ (n : LineNo) (tag : Byte) (rest : List Byte) (l : Line) (s : State),
    s.busy (.line n) = false → s.room 2 → (∀ w v r b, s.cycle ≠ .answered w v r b) →
    (s.line n).mail.jobDone = tag :: rest → l = withJobDone (s.line n) rest →
    (l.state ≠ .binding ∨ tag ≠ l.copyTag →
      exec (.bindCopyComplete n) s = .next { s with lines := s.lines.set n l }) ∧
    ∀ (st : StageNo) (f : Filling), l.state = .binding → tag = l.copyTag → l.stage = some st → l.filling = some f →
      s.bindingOf st = some ⟨n, .binding⟩ →
      (validateCopy st f = none →
        exec (.bindCopyComplete n) s =
          .next (State.postAll
            { s with
              binding := s.binding.set st (some ⟨n, .bound⟩)
              lines := s.lines.set n
                { l with
                  state := .bound, copy := some f.words, filling := none, flowTarget := 0, admitted := 0,
                  ceilingRequest := f.words[3], intensityCeiling := f.words[3], effectiveCeiling := f.words[3],
                  lastSentCeiling := 0, volume := 0, meterBaseline := none, take := 0, mixIndex := 0,
                  takeAtStep := 0, window := [], baseline := none, riseFlag := false, dwell := .stopped,
                  ramp := .stopped, settle := .running (1000 * f.words[37].toNat), holdReason := none,
                  endReason := none, tripCause := none, leaveReason := .clear }
              report := s.reported
                { kind := .bindDone, line := lineByte n, stage := stageByte (some st), time := s.clock,
                  valueA := longOf f.words[0] (BitVec.ofNat 16 (f.words[2].toNat - f.words[1].toNat)),
                  valueB := longOf f.check 0 } }
            [lineWord n 4 (wordOf (stageByte (some st)) 2), lineWord n 6 0])) ∧
      ∀ e : CopyFailure, validateCopy st f = some e →
        exec (.bindCopyComplete n) s =
          .next (State.postAll
            { s with
              binding := s.binding.set st none
              lines := s.lines.set n
                  { ({} : Line) with
                    copyTag := l.copyTag, lastSampleSeq := l.lastSampleSeq, flags := l.flags,
                    linkCopy := l.linkCopy, mail := l.mail, leaveReason := e.reason }
              report := s.reported
                { kind := .bindFailed, line := lineByte n, stage := stageByte (some st), time := s.clock,
                  valueA := longOf (BitVec.ofNat 16 e.word) (e.reason.code.setWidth 16), valueB := e.found } }
            [lineWord n 4 0xFF00, lineWord n 6 (wordOf 0 e.reason.code)])

/-- SAMPLE (R94 to R96, R99, R137): a duplicate leaves the FIFO and changes nothing else; an overrun is reported and cleared
at its take, the report's stage byte being a free value (log 10). In VACANT and BINDING a new sample sets the sequence and the flags and posts the twelve
words; in ENDED and TRIPPED it sets the meter baseline too. -/
def Obligations.ASampleOutsideAnOpenStageIsPosted : Prop :=
  (∀ (n : LineNo) (x : Sample) (rest : List Sample) (s : State), sampleReady s n x rest → s.room 12 →
     ((s.line n).lastSampleSeq = some x.seq →
       exec (.sample n) s = .next { s with links := s.links.set n { s.link n with fifo := rest } }) ∧
     ((s.line n).lastSampleSeq ≠ some x.seq → (s.line n).state = .vacant ∨ (s.line n).state = .binding →
       exec (.sample n) s =
         .next (State.postAll
           { s with
             links := s.links.set n { s.link n with fifo := rest }
             lines := s.lines.set n (afterStep1 (s.line n) x) }
           (measured n (afterStep1 (s.line n) x) x))) ∧
     ((s.line n).lastSampleSeq ≠ some x.seq → (s.line n).state = .ended ∨ (s.line n).state = .tripped →
       exec (.sample n) s =
         .next (State.postAll
           { s with
             links := s.links.set n { s.link n with fifo := rest }
             lines := s.lines.set n { afterStep1 (s.line n) x with meterBaseline := some x.meter } }
           (measured n { afterStep1 (s.line n) x with meterBaseline := some x.meter } x)))) ∧
  ∀ (n : LineNo) (x : Sample) (rest : List Sample) (c : Byte) (s : State),
    s.busy (.line n) = false → (s.link n).fifo = x :: rest → (s.link n).overrun = some c →
    (∀ a ∈ (s.link n).arrivals, a.input ≠ .restart) → (s.line n).lastSampleSeq = some x.seq →
    exec (.sample n) s =
      .next { s with
        links := s.links.set n { s.link n with fifo := rest, overrun := none }
        report := s.reported (linkReported s n .linkError 4 (longOf (c.setWidth 16) 0) 0)
        freeCount := s.freeCount + 1 }

/-- SAMPLE while a stage is open (R81, R84, R97 to R100): an absent baseline takes the meter count and nothing is added; a
difference above the jump limit is discarded and METER_JUMP is reported; any other is added to the volume, and take, intensity
ceiling and effective ceiling follow it by their formulas. In INJECTING and CLOSING a volume raised so that the effective
ceiling lies 10 kPa or more below the last sent requests a SETPOINT, before the measurement words are posted: twelve, and in
CLOSING a thirteenth with the dwell remaining. Stated where no check of step 5 moves the line: the window takes the pair in
INJECTING and CLOSING, and an idle line is settling. -/
def Obligations.ASampleWhileInjectingIsAccounted : Prop :=
  (∀ (l : Line) (d : Word) (volume take ceiling : Nat),
     volume = min 4294967295 (l.volume.toNat + d.toNat) →
     take = min 65535 (volume / ((l.stageWord 2).toNat - (l.stageWord 1).toNat)) →
     ceiling = (if take = 0 then (l.stageWord 3).toNat
       else min (l.stageWord 3).toNat (((l.stageWord 10).toNat + 65536 * (l.stageWord 11).toNat) / take)) →
     l.addVolume d =
       { l with
         volume := BitVec.ofNat 32 volume
         take := BitVec.ofNat 16 take
         intensityCeiling := BitVec.ofNat 16 ceiling
         effectiveCeiling := if l.ceilingRequest ≤ BitVec.ofNat 16 ceiling
           then l.ceilingRequest else BitVec.ofNat 16 ceiling }) ∧
  ∀ (n : LineNo) (x : Sample) (rest : List Sample) (l k : Line) (reports : List Report)
    (requests : List LinkArrival) (s : State),
    sampleReady s n x rest → s.room (if (s.line n).state = .closing then 13 else 12) →
    (s.line n).lastSampleSeq ≠ some x.seq →
    accountedAs n (s.line n) x l reports requests →
    ((s.line n).state.flowing = true ∧ tripCheck k x = none ∧ holdCheck k = none ∧
        k = { l with window := (l.window ++ [(x.pressure, x.flow)]).drop (l.window.length + 1 - 8) } ∧
        l.take < l.stageWord 12 ∧ l.stageWord 5 ≤ l.intensityCeiling ∧
        ((s.line n).state = .injecting ∧ ¬ (l.stageWord 5 ≤ x.pressure ∧ x.flow ≤ l.stageWord 6) ∨
          (s.line n).state = .closing ∧ l.stageWord 5 ≤ x.pressure ∧ x.flow ≤ l.stageWord 6) ∨
      (s.line n).state.idleBound = true ∧ tripCheck l x = none ∧ l.settle ≠ .stopped ∧ k = l) →
    exec (.sample n) s =
      .next (State.postAll
        { s with
          links := s.links.set n
            { s.link n with fifo := rest, arrivals := (s.link n).arrivals ++ requests }
          lines := s.lines.set n k
          report := { s.report with handed := s.report.handed ++ reports } }
        (measured n l x))

/-- SAMPLE that trips an idle line (R113, R115, R116): in BOUND or HOLDING, whatever its meter baseline, a pressure above Pmax
plus the margin takes the line, as the accounting leaves it (R97, R98), into TRIPPED with cause OVERPRESSURE after the
measurement words, posts STATE and REASON, requests a STOP and reports TRIP with the sample's time. -/
def Obligations.AnOverpressureTripsAnIdleLine : Prop :=
  ∀ (n : LineNo) (x : Sample) (rest : List Sample) (l : Line) (reports : List Report) (s : State),
    sampleReady s n x rest → s.room 14 → (s.line n).lastSampleSeq ≠ some x.seq →
    (s.line n).state = .bound ∨ (s.line n).state = .holding →
    accountedAs n (s.line n) x l reports [] →
    ((s.line n).stageWord 3).toNat + ((s.line n).stageWord 4).toNat < x.pressure.toNat →
    exec (.sample n) s =
      .next (State.postAll
        { s with
          links := s.links.set n
            { s.link n with fifo := rest, arrivals := (s.link n).arrivals ++ [⟨.stop, false⟩] }
          lines := s.lines.set n
            { l with
              state := .tripped, tripCause := some .overpressure, admitted := 0, ramp := .stopped,
              dwell := .stopped, settle := .stopped, baseline := none, riseFlag := false, holdReason := none }
          report := { s.report with
            handed := s.report.handed ++ reports ++
              [{ kind := .trip, detail := 0x30, line := lineByte n, stage := stageByte l.stage, time := x.arrival,
                 valueA := longOf x.pressure
                   (BitVec.ofNat 16 (((s.line n).stageWord 3).toNat + ((s.line n).stageWord 4).toNat)),
                 valueB := longOf x.flow l.admitted }] } }
        (measured n l x ++ [lineWord n 4 (wordOf (stageByte l.stage) 7), lineWord n 6 0x0030]))

/-- The checks of a sample, on a line context after the accounting (R99 to R103, R108, R109, R113 to R116, R120, R122, R124,
R125). SAMPLE of an open stage does, after its measurement words, what the checks of the line as the accounting leaves it give:
the line becomes theirs, and their posts, reports, requests, STOP and observation follow in order. The state word holds the
stage (FFh for none), the rise flag and the state, and the reasons have the codes of 11.3. The order of the trip checks with the values each reports, the pressure break against the peak pair of the window, and
the order of the hold checks; then, in INJECTING and CLOSING, with the pair in the window: a trip, a hold, the volume cap, the
intensity limit, and the refusal condition, which takes INJECTING to CLOSING with the dwell started and whose absence takes
CLOSING back with the window emptied; in BOUND and HOLDING: a trip, and once settled the baseline, the rise and the return; no
check in any other state. Each with the line afterwards, its posts in order, its request and its report. -/
def Obligations.TheChecksOfASampleDecideInOrder : Prop :=
  (∀ l : Line,
     stateWord l =
       wordOf
         (match l.stage with
           | some st => BitVec.ofNat 8 st.val
           | none => 0xFF)
         (BitVec.ofNat 8 ((if l.riseFlag then 0x80 else 0) + l.state.code.toNat))) ∧
  ([.vacant, .binding, .bound, .injecting, .closing, .holding, .ended, .tripped] : List LineState).map LineState.code =
    [0, 1, 2, 3, 4, 5, 6, 7] ∧
  ([.host, .communication, .surfaceLeak, .localStop, .packerLeak] : List HoldReason).map HoldReason.code =
    [0x10, 0x11, 0x12, 0x13, 0x14] ∧
  ([.refusal, .volumeCap, .intensity, .hostEnd] : List EndReason).map EndReason.code = [0x20, 0x21, 0x22, 0x23] ∧
  ([.overpressure, .pressureBreak, .uplift, .driveFault, .linkLost, .commandLost, .ackTimeout, .stopAll] :
      List TripCause).map TripCause.code = [0x30, 0x31, 0x32, 0x33, 0x34, 0x35, 0x36, 0x37] ∧
  (∀ (l : Line) (x : Sample),
     ((l.stageWord 3).toNat + (l.stageWord 4).toNat < x.pressure.toNat →
       tripCheck l x =
         some (.overpressure,
           longOf x.pressure (BitVec.ofNat 16 ((l.stageWord 3).toNat + (l.stageWord 4).toNat)),
           longOf x.flow l.admitted)) ∧
     (x.pressure.toNat ≤ (l.stageWord 3).toNat + (l.stageWord 4).toNat →
       ((l.stageWord 36).getLsbD 0 = true ∧ l.stageWord 15 < x.uplift →
         tripCheck l x = some (.uplift, longOf x.uplift (l.stageWord 15), longOf x.pressure x.flow)) ∧
       ((l.stageWord 36).getLsbD 0 = false ∨ x.uplift ≤ l.stageWord 15 →
         (l.flags.getLsbD 2 = true →
           tripCheck l x =
             some (.driveFault, longOf x.pressure x.flow, longOf (l.flags.setWidth 16) 0)) ∧
         (l.flags.getLsbD 2 = false → (l.state.flowing = false ∨ l.window = []) → tripCheck l x = none) ∧
         ∀ (before after : List (Word × Word)) (pk : Word × Word), l.flags.getLsbD 2 = false →
           l.window = before ++ pk :: after → (∀ q ∈ before, q.1 < pk.1) → (∀ q ∈ after, q.1 ≤ pk.1) →
           l.state.flowing = true →
           tripCheck l x =
             if 4 ≤ l.window.length ∧ 100 ≤ pk.1.toNat ∧
                 x.pressure.toNat * 100 + pk.1.toNat * (l.stageWord 13).toNat ≤ pk.1.toNat * 100 ∧
                 pk.2.toNat * (100 + (l.stageWord 14).toNat) ≤ x.flow.toNat * 100
             then some (.pressureBreak, longOf x.pressure x.flow, longOf pk.1 pk.2) else none)) ∧
     (l.flags.getLsbD 1 = true → holdCheck l = some .localStop) ∧
     (l.flags.getLsbD 1 = false → l.flags.getLsbD 3 = true → holdCheck l = some .packerLeak) ∧
     (l.flags.getLsbD 1 = false → l.flags.getLsbD 3 = false → l.flags.getLsbD 0 = true →
       (l.stageWord 36).getLsbD 2 = true → holdCheck l = some .surfaceLeak) ∧
     (l.flags.getLsbD 1 = false → l.flags.getLsbD 3 = false →
       (l.flags.getLsbD 0 = false ∨ (l.stageWord 36).getLsbD 2 = false) → holdCheck l = none)) ∧
  (∀ (n : LineNo) (l k : Line) (x : Sample) (now : Long) (leaving : List Act),
     l.state = .injecting ∨ l.state = .closing →
     k = { l with window := (l.window ++ [(x.pressure, x.flow)]).drop (l.window.length + 1 - 8) } →
     leaving = .post (lineWord n 15 0) :: (if l.state = .closing then [.post (lineWord n 19 0)] else []) →
     (∀ c a b, tripCheck k x = some (c, a, b) →
       sampleChecks n l x now =
         ({ k with
             state := .tripped, tripCause := some c, admitted := 0, ramp := .stopped, dwell := .stopped,
             settle := .stopped, holdReason := none },
           leaving ++
             [.post (lineWord n 4 (stateWord { l with state := .tripped })), .post (lineWord n 6 (wordOf 0 c.code)),
               .stop n,
               .hand
                 { kind := .trip, detail := c.code.setWidth 7, line := lineByte n, stage := stageByte l.stage,
                   time := x.arrival, valueA := a, valueB := b }])) ∧
     (tripCheck k x = none →
       (∀ r, holdCheck k = some r →
         sampleChecks n l x now =
           ({ k with
               state := .holding, holdReason := some r, admitted := 0, ramp := .stopped, dwell := .stopped,
               settle := .running (1000 * (l.stageWord 37).toNat), baseline := none, riseFlag := false },
             leaving ++
               [.post (lineWord n 4 (wordOf (stageByte l.stage) 5)), .post (lineWord n 6 (wordOf 0 r.code)),
                 .request n .setpoint,
                 .hand
                   { kind := .holdImposed, detail := r.code.setWidth 7, line := lineByte n,
                     stage := stageByte l.stage, time := x.arrival, valueA := longOf x.pressure x.flow,
                     valueB := longOf (l.flags.setWidth 16) 0 }])) ∧
       (holdCheck k = none →
         (∀ r, (l.stageWord 12 ≤ l.take ∧ r = .volumeCap ∨
             l.take < l.stageWord 12 ∧ l.intensityCeiling < l.stageWord 5 ∧ r = .intensity) →
           sampleChecks n l x now =
             ({ k with
                 state := .ended, endReason := some r, admitted := 0, ramp := .stopped, dwell := .stopped,
                 settle := .stopped },
               leaving ++
                 [.post (lineWord n 4 (stateWord { l with state := .ended })), .post (lineWord n 6 (wordOf 0 r.code)),
                   .stop n, .hand (endedReport n l r now)])) ∧
         (l.take < l.stageWord 12 → l.stageWord 5 ≤ l.intensityCeiling →
           (l.stageWord 5 ≤ x.pressure ∧ x.flow ≤ l.stageWord 6 →
             (l.state = .injecting →
               sampleChecks n l x now =
                 ({ k with state := .closing, dwell := .running (1000 * (l.stageWord 7).toNat) },
                   [.post (lineWord n 19 (l.stageWord 7)),
                     .post (lineWord n 4 (stateWord { l with state := .closing })), .post (lineWord n 6 0)])) ∧
             (l.state = .closing → sampleChecks n l x now = (k, []))) ∧
           (¬ (l.stageWord 5 ≤ x.pressure ∧ x.flow ≤ l.stageWord 6) →
             (l.state = .injecting → sampleChecks n l x now = (k, [])) ∧
             (l.state = .closing →
               sampleChecks n l x now =
                 ({ k with state := .injecting, dwell := .stopped, window := [] },
                   [.post (lineWord n 19 0), .post (lineWord n 4 (stateWord { l with state := .injecting })),
                     .post (lineWord n 6 0)]))))))) ∧
  (∀ (n : LineNo) (l : Line) (x : Sample) (now : Long),
     (l.state = .vacant ∨ l.state = .binding ∨ l.state = .ended ∨ l.state = .tripped →
       sampleChecks n l x now = (l, [])) ∧
     ∀ c a b, l.state = .bound ∨ l.state = .holding → tripCheck l x = some (c, a, b) →
       sampleChecks n l x now =
         ({ l with
             state := .tripped, tripCause := some c, admitted := 0, ramp := .stopped, dwell := .stopped,
             settle := .stopped, baseline := none, riseFlag := false, holdReason := none },
           [.post (lineWord n 4 (wordOf (stageByte l.stage) 7)), .post (lineWord n 6 (wordOf 0 c.code)), .stop n,
             .hand
               { kind := .trip, detail := c.code.setWidth 7, line := lineByte n, stage := stageByte l.stage,
                 time := x.arrival, valueA := a, valueB := b }])) ∧
  (∀ (n : LineNo) (l : Line) (x : Sample) (now : Long) (base : Word) (st : StageNo),
    l.state = .bound ∨ l.state = .holding → tripCheck l x = none → l.stage = some st →
    (l.settle ≠ .stopped → sampleChecks n l x now = (l, [])) ∧
    (l.settle = .stopped → base = l.baseline.getD x.pressure →
      (l.riseFlag = true ∨
          x.pressure.toNat < base.toNat + (l.stageWord 16).toNat ∧ l.flags.getLsbD 0 = false →
        sampleChecks n l x now = ({ l with baseline := some base }, [])) ∧
      (∀ back : Bool, l.riseFlag = false →
        (back = false ∧ base.toNat + (l.stageWord 16).toNat ≤ x.pressure.toNat ∨
          back = true ∧ x.pressure.toNat < base.toNat + (l.stageWord 16).toNat ∧ l.flags.getLsbD 0 = true) →
        sampleChecks n l x now =
          ({ l with baseline := some base, riseFlag := true },
            [.post (lineWord n 4 (wordOf (BitVec.ofNat 8 st.val) (0x80 ||| lowByte l.state.code))),
              .observe ⟨n, st, back, x.pressure, base⟩])))) ∧
  ∀ (n : LineNo) (x : Sample) (rest : List Sample) (l k : Line) (acts : List Act) (reports : List Report)
    (requests : List LinkArrival) (s : State),
    sampleReady s n x rest → s.room 15 → (s.line n).lastSampleSeq ≠ some x.seq →
    (s.line n).state.flowing = true ∨ (s.line n).state.idleBound = true →
    accountedAs n (s.line n) x l reports requests → sampleChecks n l x s.clock = (k, acts) →
    exec (.sample n) s =
      .next (State.postAll
        { s with
          links := s.links.set n
            { s.link n with fifo := rest, arrivals := (s.link n).arrivals ++ requests ++ arrivalsOf acts }
          lines := s.lines.set n k
          report := { s.report with handed := s.report.handed ++ reports ++ reportsOf acts }
          observations := s.observations ++ observationsOf acts }
        (measured n l x ++ postsOf acts))

/-- RAMP_EXPIRY (R79): the admitted flow rises by the ramp step, no further than the target; the word is posted, a SETPOINT
requested, and the timer restarted while the flow is below the target; a post that finds no place leaves the request and
the restart to come after it, so that the next period runs from them. DWELL_EXPIRY (R105) ends the stage on ground
refusal, with its four posts, its STOP and its report. SETTLE_EXPIRY (R123) stops the settle timer and posts nothing. -/
def Obligations.TheTimersOfALineExpire : Prop :=
  (∀ (n : LineNo) (a : Word) (s : State), s.busy (.line n) = false → s.room 1 →
     (∀ w v r b, s.cycle ≠ .answered w v r b) →
     (s.line n).state = .injecting ∨ (s.line n).state = .closing → (s.line n).ramp = .running 0 →
     a.toNat = min ((s.line n).admitted.toNat + ((s.line n).stageWord 9).toNat) (s.line n).flowTarget.toNat →
     exec (.rampExpiry n) s =
       .next (State.postAll
         { s with
           lines := s.lines.set n
             { s.line n with
               admitted := a
               ramp := if a.toNat < (s.line n).flowTarget.toNat then .running 1000 else .stopped }
           links := s.links.set n
             { s.link n with arrivals := (s.link n).arrivals ++ [⟨.request .setpoint, false⟩] } }
         [lineWord n 15 a])) ∧
  (∀ (n : LineNo) (a : Word) (s : State), s.busy (.line n) = false → (∀ w v r b, s.cycle ≠ .answered w v r b) →
     s.queue.length = 16 → queued s.queue (lineAddr n 15) = false →
     (s.line n).state = .injecting ∨ (s.line n).state = .closing → (s.line n).ramp = .running 0 →
     a.toNat = min ((s.line n).admitted.toNat + ((s.line n).stageWord 9).toNat) (s.line n).flowTarget.toNat →
     exec (.rampExpiry n) s =
       .next { s with
         lines := s.lines.set n { s.line n with admitted := a, ramp := .stopped }
         waiting := s.waiting ++
           [⟨.line n, lineWord n 15 a, [.request n .setpoint, .restartRamp n], none⟩] }) ∧
  (∀ (n : LineNo) (s : State),
     s.perform (.restartRamp n) =
       { s with
         lines := s.lines.set n
           { s.line n with
             ramp := if (s.line n).state.flowing = true ∧ (s.line n).admitted < (s.line n).flowTarget
               then .running 1000 else .stopped } }) ∧
  (∀ (n : LineNo) (s : State), s.busy (.line n) = false → (∀ w v r b, s.cycle ≠ .answered w v r b) →
     ((s.line n).state = .closing → (s.line n).dwell = .running 0 → s.room 4 →
       exec (.dwellExpiry n) s =
         .next (State.postAll (endedState s n .refusal)
           [lineWord n 15 0, lineWord n 19 0, lineWord n 4 (stateWord (endedLine (s.line n) .refusal)),
             lineWord n 6 0x0020])) ∧
     ((s.line n).state = .bound ∨ (s.line n).state = .holding → (s.line n).settle = .running 0 →
       exec (.settleExpiry n) s = .next { s with lines := s.lines.set n { s.line n with settle := .stopped } }))

/-- LINK_STATE_CHANGE, UNANSWERED_COMMAND and PLANT_STOP_EVENT (R117, R118, R119, R129): the copy of the link state
follows every change, OFF makes the last sample sequence absent and the flags clear; a change to LOST, a count of 2 or
more and a plant stop event trip a line that is INJECTING or CLOSING, and have no other effect on any other line. -/
def Obligations.LinkAndPlantEventsTripAFlowingLine : Prop :=
  ∀ (n : LineNo) (rest : List LinkEvent) (l : Line) (s : State), s.busy (.line n) = false → s.room 4 →
    (∀ w v r b, s.cycle ≠ .answered w v r b) →
    (∀ to_ : LinkState, (s.line n).mail.linkEvents = .stateChange to_ :: rest →
      l = { s.line n with
        linkCopy := to_
        lastSampleSeq := if to_ = .off then none else (s.line n).lastSampleSeq
        flags := if to_ = .off then 0 else (s.line n).flags
        mail := { (s.line n).mail with linkEvents := rest } } →
      (to_ ≠ .lost ∨ l.state.flowing = false →
        exec (.linkStateChange n) s = .next { s with lines := s.lines.set n l }) ∧
      (to_ = .lost → l.state.flowing = true →
        exec (.linkStateChange n) s =
          .next (State.postAll (trippedState s n l .linkLost) (trippedPosts n l .linkLost)))) ∧
    (∀ count : Byte, (s.line n).mail.linkEvents = .unanswered count :: rest →
      l = { s.line n with mail := { (s.line n).mail with linkEvents := rest } } →
      (count.toNat < 2 ∨ l.state.flowing = false →
        exec (.unansweredCommand n) s = .next { s with lines := s.lines.set n l }) ∧
      (2 ≤ count.toNat → l.state.flowing = true →
        exec (.unansweredCommand n) s =
          .next (State.postAll (trippedState s n l .commandLost) (trippedPosts n l .commandLost)))) ∧
    ∀ (c : PlantCause) (tc : TripCause) (stops : List PlantCause), (s.line n).mail.plantStops = c :: stops →
      (c = .stopAll ∧ tc = .stopAll ∨ c = .ackTimeout ∧ tc = .ackTimeout) →
      l = { s.line n with mail := { (s.line n).mail with plantStops := stops } } →
      (l.state.flowing = false → exec (.plantStopEvent n c) s = .next { s with lines := s.lines.set n l }) ∧
      (l.state.flowing = true →
        exec (.plantStopEvent n c) s = .next (State.postAll (trippedState s n l tc) (trippedPosts n l tc)))

/-- REFUSED_LOCAL and HOLD_DEMAND (R121, R128, R122): a line INJECTING or CLOSING is held, with reason LOCAL_STOP or
COMMUNICATION; any other line is unchanged. -/
def Obligations.LocalRefusalAndDemandHoldAFlowingLine : Prop :=
  ∀ (n : LineNo) (l : Line) (s : State), s.busy (.line n) = false → s.room 4 →
    (∀ w v r b, s.cycle ≠ .answered w v r b) →
    (∀ (echo : Byte) (rest : List LinkEvent), (s.line n).mail.linkEvents = .refusedLocal echo :: rest →
      l = { s.line n with mail := { (s.line n).mail with linkEvents := rest } } →
      (l.state.flowing = false → exec (.refusedLocal n) s = .next { s with lines := s.lines.set n l }) ∧
      (l.state.flowing = true →
        exec (.refusedLocal n) s =
          .next (State.postAll
            (heldState s n l .localStop (longOf (echo.setWidth 16) 0) (longOf (l.flags.setWidth 16) 1))
            (heldPosts n l .localStop)))) ∧
    ∀ (o : Observation) (rest : List Observation), (s.line n).mail.demands = o :: rest →
      l = { s.line n with mail := { (s.line n).mail with demands := rest } } →
      (l.state.flowing = false → exec (.holdDemand n) s = .next { s with lines := s.lines.set n l }) ∧
      (l.state.flowing = true →
        exec (.holdDemand n) s =
          .next (State.postAll
            (heldState s n l .communication
              (longOf (wordOf (BitVec.ofNat 8 o.stage.val) (lineByte o.line)) (if o.isReturn then 1 else 0))
              (longOf (l.flags.setWidth 16) 2))
            (heldPosts n l .communication)))

/-- RISE_OBSERVED and RETURN_OBSERVED (R126, R127): every line that is INJECTING or CLOSING, has COMM_CHECK and lists the
observing stage in words 19 to 18 plus word 18 of its copy gets the demand at the end of its list, every other line is
unchanged, and the reports handed over are one for each such line, in ascending line number. The observation is the oldest of
its line, in whatever place among those of others (log 40, DESIGN CHOICE), and the observing line is judged by its context like
any other (log 41, DEDUCED). -/
def Obligations.AnObservationDemandsHoldsOfQualifyingLines : Prop :=
  (∀ (l : Line) (st : StageNo),
     l.qualifies st = true ↔
       (l.state = .injecting ∨ l.state = .closing) ∧ (l.stageWord 36).getLsbD 1 = true ∧
         ∃ k : Fin 38, 19 ≤ k.val ∧ k.val ≤ 22 ∧ k.val ≤ 18 + (l.stageWord 18).toNat ∧
           l.stageWord k = BitVec.ofNat 16 st.val) ∧
  ∀ (o : Observation) (before rest : List Observation) (s : State),
    s.observations = before ++ o :: rest → (∀ p ∈ before, p.line ≠ o.line) →
    ∃ t, exec (if o.isReturn then .returnObserved o.line else .riseObserved o.line) s = .next t ∧
      t = { s with observations := before ++ rest, lines := t.lines, report := t.report } ∧
      (∀ x : LineNo, t.line x =
        if (s.line x).qualifies o.stage = true
        then { s.line x with mail := { (s.line x).mail with demands := (s.line x).mail.demands ++ [o] } }
        else s.line x) ∧
      t.report = { s.report with
        handed := s.report.handed ++
          (([0, 1, 2, 3, 4, 5, 6, 7] : List LineNo).filter fun x => (s.line x).qualifies o.stage).map fun x =>
            { kind := .communication, line := lineByte x, stage := stageByte (s.line x).stage, time := s.clock,
              valueA := longOf (wordOf (BitVec.ofNat 8 o.stage.val) (lineByte o.line))
                (if o.isReturn then 1 else 0),
              valueB := longOf o.pressure o.baseline } }

/-! ### The uplink receiver -/

/-- CLOCK_MISSING and UPLINK_CLOCK_EDGE (R133): a watch timer that has expired in PRESENT takes the watch to MISSING, drops
the frame in assembly, has the receiver hunt and reports LINK_ERROR with the time of the expiry, however late it is taken (its
stage byte is a free value, log 10); an edge makes the watch PRESENT and restarts the timer, and an expiry not yet taken is
then none. That a command carries one bit or one character, that a bit that finds nothing is kept, and that bits are taken
while the watch is PRESENT, are log 24's (DESIGN CHOICE). SYNC_FOUND, SYNC1_CHARACTER, FRAME_START and FRAMING_ERROR (R134, R135): the bit
that makes the last eight bits the sync code takes the receiver to SYNC1, and any other is kept; a second sync code takes
it to BETWEEN, and the bits of any other character are looked at again; in BETWEEN a sync code is stripped, an uplink
kind code starts a frame, and any other character is reported and has the receiver hunt. The bits of a character come most
significant first (R131). -/
def Obligations.TheReceiverWatchesItsClockAndFindsFrames : Prop :=
  (∀ c : Byte, (charBits c).length = 8 ∧ ∀ k, k < 8 → (charBits c).getD k false = c.getLsbD (7 - k)) ∧
  (∀ (n : LineNo) (s : State),
     (∀ expiry : Long, (s.link n).watch = .present → (s.link n).watchExpiry = some expiry →
       exec (.clockMissing n) s =
         .next { s with
           links := s.links.set n
             { s.link n with
               watch := .missing, watchTimer := .stopped, watchExpiry := none, receiver := .hunting, huntBits := [],
               assembly := [] }
           report := s.reported { linkReported s n .linkError 1 0 0 with time := expiry }
           freeCount := s.freeCount + 1 }) ∧
     ((s.link n).watch ≠ .stopped →
       exec (.uplinkClockEdge n) s =
         .next { s with
           links := s.links.set n
             { s.link n with watch := .present, watchTimer := .running 1, watchExpiry := none } })) ∧
  (∀ (n : LineNo) (s : State),
     (∀ bit : Bool, (s.link n).receiver = .hunting → (s.link n).watch = .present →
       ∀ bits : List Bool, bits = ((s.link n).huntBits ++ [bit]).drop ((s.link n).huntBits.length - 7) →
         (bits = charBits (lowByte (s.config.word 2)) →
           exec (.syncFound n bit) s =
             .next { s with links := s.links.set n { s.link n with receiver := .sync1, huntBits := [] } }) ∧
         (bits ≠ charBits (lowByte (s.config.word 2)) →
           exec (.syncFound n bit) s =
             .next { s with links := s.links.set n { s.link n with huntBits := bits } })) ∧
     (∀ c : Byte, (s.link n).receiver = .sync1 →
       (c = lowByte (s.config.word 2) →
         exec (.sync1Character n c) s =
           .next { s with links := s.links.set n { s.link n with receiver := .between } }) ∧
       (c ≠ lowByte (s.config.word 2) →
         exec (.sync1Character n c) s =
           .next { s with
             links := s.links.set n { s.link n with receiver := .hunting, huntBits := charBits c } })) ∧
     ∀ c : Byte, (s.link n).receiver = .between →
       (c = lowByte (s.config.word 2) → exec (.frameStart n c) s = .next s) ∧
       (c ≠ lowByte (s.config.word 2) → c = 0x5A ∨ c = 0x3C →
         exec (.frameStart n c) s =
           .next { s with links := s.links.set n { s.link n with receiver := .frame, assembly := [c] } }) ∧
       (c ≠ lowByte (s.config.word 2) → c ≠ 0x5A → c ≠ 0x3C →
         exec (.framingError n c) s =
           .next { s with
             links := s.links.set n { s.link n with receiver := .hunting, huntBits := [], assembly := [] }
             report := s.reported (linkReported s n .linkError 2 (longOf (c.setWidth 16) 0) 0)
             freeCount := s.freeCount + 1 }))

/-- SAMPLE_FRAME and ANSWER_FRAME (R136, R137): characters are assembled up to 13 of a SAMPLE and 6 of an ANSWER. With the
CRC right, a SAMPLE enters the FIFO, where a full one gives up its newest and counts an overrun, and goes to the
link state and the flag latch, and an ANSWER goes to the transmitter; with the CRC wrong the frame is dropped, the receiver
hunts and LINK_ERROR is reported with both CRCs, its stage byte a free value (log 10). That a command carries one character is
log 24's (DESIGN CHOICE). -/
def Obligations.FramesAreAssembledAndJudgedByTheirCrc : Prop :=
  ∀ (n : LineNo) (c : Byte) (frame : List Byte) (s : State),
    (s.link n).receiver = .frame → frame = (s.link n).assembly ++ [c] →
    (∀ k : Instr, (k = .sampleFrame n c ∧ (s.link n).assembly.head? = some 0x5A ∧ frame.length < 13 ∨
        k = .answerFrame n c ∧ (s.link n).assembly.head? = some 0x3C ∧ frame.length < 6) →
      exec k s = .next { s with links := s.links.set n { s.link n with assembly := frame } }) ∧
    (∀ k : Instr, (k = .sampleFrame n c ∧ (s.link n).assembly.head? = some 0x5A ∧ frame.length = 13 ∨
        k = .answerFrame n c ∧ (s.link n).assembly.head? = some 0x3C ∧ frame.length = 6) →
      ∀ sent : Word,
        sent = wordOf (frame.getD (frame.length - 2) 0) (frame.getD (frame.length - 1) 0) →
        sent ≠ crc (frame.take (frame.length - 2)) →
        exec k s =
          .next { s with
            links := s.links.set n { s.link n with receiver := .hunting, huntBits := [], assembly := [] }
            report := s.reported
              (linkReported s n .linkError 3 (longOf (wordOf (frame.getD 1 0) (frame.getD 0 0)) 0)
                (longOf sent (crc (frame.take (frame.length - 2)))))
            freeCount := s.freeCount + 1 }) ∧
    ((s.link n).assembly.head? = some 0x5A → frame.length = 13 →
      wordOf (frame.getD 11 0) (frame.getD 12 0) = crc (frame.take 11) →
      ∀ x : Sample,
        x =
          { seq := frame.getD 1 0
            pressure := wordOf (frame.getD 2 0) (frame.getD 3 0)
            flow := wordOf (frame.getD 4 0) (frame.getD 5 0)
            meter := wordOf (frame.getD 6 0) (frame.getD 7 0)
            uplift := wordOf (frame.getD 8 0) (frame.getD 9 0)
            flags := frame.getD 10 0
            arrival := s.clock } →
        exec (.sampleFrame n c) s =
          .next { s with
            links := s.links.set n
              { s.link n with
                receiver := .between, assembly := [], arrivals := (s.link n).arrivals ++ [⟨.judge x, false⟩],
                fifo := if (s.link n).fifo.length < 3 then (s.link n).fifo ++ [x] else (s.link n).fifo.dropLast ++ [x],
                overrun := if (s.link n).fifo.length < 3 then (s.link n).overrun
                  else some (match (s.link n).overrun with
                    | none => 1
                    | some k => if k = 255 then 255 else k + 1) } }) ∧
    ((s.link n).assembly.head? = some 0x3C → frame.length = 6 →
      wordOf (frame.getD 4 0) (frame.getD 5 0) = crc (frame.take 4) →
      exec (.answerFrame n c) s =
        .next { s with
          links := s.links.set n
            { s.link n with
              receiver := .between, assembly := [],
              arrivals := (s.link n).arrivals ++ [⟨.answer (frame.getD 2 0) (frame.getD 3 0), false⟩] } })

/-! ### The link state, the flag latch and the transmitter -/

/-- SAMPLE_JUDGED_AT_LINK (R146, R148, R149) of a link that is not OFF: the link is UP with the sample timer started; out of
HUNTING or LOST the LINK STATE word is posted and the supervisor told, and out of LOST the link is reported restored; an
open latch that sees other flags than its own takes them, closes, reports FLAGS and posts its word. The stage bytes of both
reports are free values (log 10). An OFF link only loses the event (log 25). -/
def Obligations.ASampleIsJudgedAtTheLink : Prop :=
  ∀ (n : LineNo) (x : Sample) (rest : List LinkArrival) (s : State), linkTurn s n (.judge x) rest → s.room 2 →
    ((s.link n).state = .off →
      exec (.sampleJudgedAtLink n) s =
        .next { s with links := s.links.set n { s.link n with arrivals := rest } }) ∧
    ∀ (latched : Bool) (restored : Nat) (k : Link), (s.link n).state ≠ .off →
      (latched = true ↔ (s.link n).latchOpen = true ∧ x.flags.setWidth 4 ≠ (s.link n).latchedFlags) →
      restored = (if (s.link n).state = .lost then 1 else 0) →
      k =
        { s.link n with
          arrivals := without rest .sampleExpiry
          state := .up
          sampleTimer := .running (s.config.word 3).toNat
          lastArrival := x.arrival
          lastSeq := x.seq
          flagsSeen := x.flags.setWidth 4
          latchOpen := if latched then false else (s.link n).latchOpen
          latchedFlags := if latched then x.flags.setWidth 4 else (s.link n).latchedFlags } →
      exec (.sampleJudgedAtLink n) s =
        .next (State.postAll
          { s with
            links := s.links.set n k
            lines := if (s.link n).state = .up then s.lines else told s n [.stateChange .up]
            freeCount := s.freeCount + restored + (if latched then 1 else 0)
            report := { s.report with
              handed := s.report.handed ++
                (if (s.link n).state = .lost
                  then [linkReported s n .linkRestored 0 x.arrival (s.link n).lostAt] else []) ++
                (if latched then
                  [linkReported { s with freeCount := s.freeCount + restored } n .flags 0
                    (longOf ((x.flags.setWidth 4 : BitVec 4).setWidth 16) ((s.link n).latchedFlags.setWidth 16))
                    (longOf (x.seq.setWidth 16) 0)] else []) } }
          ((if (s.link n).state = .up then [] else [lineWord n 20 (wordOf (s.link n).unanswered 2)]) ++
            (if latched then [lineWord n 21 ((x.flags.setWidth 4 : BitVec 4).setWidth 16)] else [])))

/-- The frames of the downlink (R131, R132, R140, R144, R85, R87): a command frame takes the next sequence, its SETPOINT
payload is the admitted flow and the effective ceiling, its MIX payload the mix code, the low byte of word 24 plus twice the
mix index (R38; a free value with no copy in force, log 11), its STOP payload nothing; it enters IN FLIGHT as SENDING. A REFRESH carries the sequence of the last
command and takes no slot. The effective ceiling sent becomes the last sent. -/
def Obligations.FramesAreBuiltFromTheSupervisor : Prop :=
  (∀ (l : Line) (i : Word) (k : Fin 38), k.val = 24 + 2 * i.toNat → l.mixCode i = lowByte (l.stageWord k)) ∧
  ∀ (n : LineNo) (s : State) (sync : Byte) (seq : Byte) (setpoint : List Byte),
    sync = lowByte (s.config.word 2) → seq = (s.link n).downlinkSeq →
    setpoint =
      [highByte (s.line n).admitted, lowByte (s.line n).admitted,
        highByte (s.line n).effectiveCeiling, lowByte (s.line n).effectiveCeiling] →
    (∀ (k : CommandKind) (code : Byte) (payload : List Byte) (sum : Word),
      (k = .setpoint ∧ code = 0xA5 ∧ payload = setpoint ∨
        k = .mix ∧ code = 0xC3 ∧ (s.line n).copy ≠ none ∧
          payload = [(s.line n).mixCode (s.line n).mixIndex] ∨
        k = .mix ∧ code = 0xC3 ∧ (s.line n).copy = none ∧ payload = [Config.freeMixCode s.freeCount] ∨
        k = .stop ∧ code = 0x0F ∧ payload = []) →
      sum = crc (code :: seq :: payload) →
      s.sendCommand n k =
        { s with
          links := s.links.set n
            { s.link n with
              downlinkSeq := seq + 1
              inFlight := some ⟨k, seq, false⟩
              stopWaiting := if k = .stop then false else (s.link n).stopWaiting
              wire := .sending (.command k)
                ([sync, sync, code, seq] ++ payload ++ [highByte sum, lowByte sum]) }
          lines := if k = .setpoint
            then s.lines.set n { s.line n with lastSentCeiling := (s.line n).effectiveCeiling } else s.lines
          freeCount := if k = .mix ∧ (s.line n).copy = none then s.freeCount + 1 else s.freeCount }) ∧
    ∀ sum : Word, sum = crc (0x69 :: (seq - 1) :: setpoint) →
      s.sendRefresh n =
        { s with
          links := s.links.set n
            { s.link n with
              wire := .sending .refresh
                ([sync, sync, 0x69, seq - 1] ++ setpoint ++ [highByte sum, lowByte sum]) }
          lines := s.lines.set n { s.line n with lastSentCeiling := (s.line n).effectiveCeiling } }

/-- FRAME_REQUEST and STOP_REQUEST (R139, R140, R141): a request joins PENDING unless its kind is there, and the head of
PENDING is taken at once where the wire is free; a STOP empties PENDING and is sent at once on a wire sending fill,
superseding a command AWAITING, and waits otherwise. A link that is OFF takes neither (log 25). Which event a controller takes
next (R152, log 12): while the oldest of its events is one that waited behind a post, that one and no other; otherwise the oldest
of the source that is asked for, whatever else is there. -/
def Obligations.RequestsAndStopsReachTheWire : Prop :=
  (∀ (k : Link) (a : LinkArrival) (rest : List LinkArrival) (src : InputSource),
     k.arrivals = a :: rest → a.waited = true →
     k.nextInput src = if a.input.source = src then some (a.input, rest) else none) ∧
  (∀ (k : Link) (src : InputSource), (∀ a ∈ k.arrivals.head?, a.waited = false) →
     ((∀ a ∈ k.arrivals, a.input.source ≠ src) → k.nextInput src = none) ∧
     ∀ (before after : List LinkArrival) (a : LinkArrival), k.arrivals = before ++ a :: after →
       (∀ b ∈ before, b.input.source ≠ src) → a.input.source = src →
       k.nextInput src = some (a.input, before ++ after)) ∧
  (∀ (x : Sample) (echo outcome : Byte) (r : RequestKind),
     ([.judge x, .answer echo outcome, .request r, .stop, .restart, .rearm, .answerExpiry, .refreshExpiry, .sampleExpiry,
         .takeNext, .notice] : List LinkInput).map LinkInput.source =
       [.receiver, .receiver, .supervisor, .supervisor, .supervisor, .supervisor, .answerTimer, .refreshTimer,
         .sampleTimer, .own, .own]) ∧
  ∀ (n : LineNo) (rest : List LinkArrival) (s : State), s.room 2 →
    (∀ (r : RequestKind) (pend : List RequestKind), linkTurn s n (.request r) rest →
      pend = (if r ∈ (s.link n).pending then (s.link n).pending else (s.link n).pending ++ [r]) →
      ((s.link n).state = .off →
        exec (.frameRequest n) s = .next { s with links := s.links.set n { s.link n with arrivals := rest } }) ∧
      ((s.link n).state ≠ .off →
        ((s.link n).wire ≠ .fill ∨ (s.link n).inFlight ≠ none ∨ (s.link n).stopWaiting = true →
          exec (.frameRequest n) s =
            .next { s with links := s.links.set n { s.link n with arrivals := rest, pending := pend } }) ∧
        ∀ (h : RequestKind) (t : List RequestKind), pend = h :: t →
          (s.link n).wire = .fill → (s.link n).inFlight = none → (s.link n).stopWaiting = false →
          exec (.frameRequest n) s =
            .next (State.postAll
              (State.sendCommand
                { s with links := s.links.set n { s.link n with arrivals := rest, pending := t } } n h.command)
              [lastCommand n h.command (s.link n).downlinkSeq .awaiting]))) ∧
    (linkTurn s n .stop rest →
      ((s.link n).state = .off →
        exec (.stopRequest n) s = .next { s with links := s.links.set n { s.link n with arrivals := rest } }) ∧
      ((s.link n).state ≠ .off → (s.link n).stopWaiting = true ∨ (s.link n).wire ≠ .fill →
        exec (.stopRequest n) s =
          .next { s with
            links := s.links.set n { s.link n with arrivals := rest, pending := [], stopWaiting := true } }) ∧
      ∀ k : Link, k = { s.link n with arrivals := rest, pending := [], stopWaiting := true } →
        (s.link n).state ≠ .off → (s.link n).stopWaiting = false → (s.link n).wire = .fill →
        exec (.stopRequest n) s = .next (State.postAll (stopTaken s n k) (stopPosts n k)))

/-- FRAME_SENT (R140, R141, R144, R151): the wire goes back to fill at the loaded rate; a command becomes AWAITING with the
answer timer started; a SETPOINT, a STOP and a REFRESH restart the refresh timer. Then a waiting STOP is sent, or the
head of PENDING where the slot is empty, or an owed REFRESH, and otherwise nothing. That the restart of the refresh timer drops
an expiry not yet taken is the model's choice (log 35, DESIGN CHOICE). -/
def Obligations.TheEndOfAFrameFreesTheWire : Prop :=
  ∀ (n : LineNo) (kind : FrameKind) (chars : List Byte) (restarts : Bool) (k : Link) (s : State),
    (s.link n).wire = .sending kind chars → s.busy (.link n) = false → s.noOwn n → s.noneWaited n → s.room 2 →
    (restarts = true ↔ kind ≠ .command .mix) →
    k =
      { s.link n with
        wire := .fill
        wireRate := s.config.word 1
        inFlight := if kind = .refresh then (s.link n).inFlight
          else (s.link n).inFlight.map fun c => { c with awaiting := true }
        answerTimer := if kind = .refresh then (s.link n).answerTimer else .running (s.config.word 4).toNat
        refreshTimer := if restarts then .running (s.config.word 5).toNat else (s.link n).refreshTimer
        refreshOwed := if restarts then false else (s.link n).refreshOwed
        arrivals := if restarts then without (s.link n).arrivals .refreshExpiry else (s.link n).arrivals } →
    (k.stopWaiting = true →
      exec (.frameSent n) s = .next (State.postAll (stopTaken s n k) (stopPosts n k))) ∧
    (∀ (h : RequestKind) (t : List RequestKind), k.stopWaiting = false → k.pending = h :: t → k.inFlight = none →
      exec (.frameSent n) s =
        .next (State.postAll
          (State.sendCommand { s with links := s.links.set n { k with pending := t } } n h.command)
          [lastCommand n h.command k.downlinkSeq .awaiting])) ∧
    (k.stopWaiting = false → k.pending = [] → k.refreshOwed = true →
      exec (.frameSent n) s = .next (State.sendRefresh { s with links := s.links.set n k } n)) ∧
    (k.stopWaiting = false →
      (k.pending ≠ [] ∧ k.inFlight ≠ none ∨ k.pending = [] ∧ k.refreshOwed = false) →
      exec (.frameSent n) s = .next { s with links := s.links.set n k })

/-- ANSWER and ANSWER_TIMEOUT (R142, R143, R148): with a command AWAITING, an answer that echoes its sequence, or the
expiry of the answer timer, empties the slot, stops the timer and posts LAST COMMAND; APPLIED and REFUSED_LOCAL clear the
unanswered count, MALFORMED and the expiry raise it, stopping at 255, and report NO_ANSWER (its stage byte a free value, log
10); the supervisor is told; then
the head of PENDING is taken where the wire is free. Any other answer has no effect. That the supervisor is told, and the report
of a MALFORMED answer handed over, after both posts is log 22's (DESIGN CHOICE). LAST COMMAND holds the sequence in bits 0 to 7,
the kind in bits 8 and 9 and the status in bits 12 to 14 (11.3). -/
def Obligations.AnAnswerOrItsTimeoutEndsTheCommand : Prop :=
  (∀ (kind : CommandKind) (seq : Byte) (status : CommandStatus),
     (lastCommandWord kind seq status).toNat =
       seq.toNat + 0x100 * kind.code.toNat + 0x1000 * status.code.toNat) ∧
  ([.setpoint, .mix, .stop] : List CommandKind).map CommandKind.code = [1, 2, 3] ∧
  ([.awaiting, .applied, .refusedLocal, .malformed, .unanswered, .superseded] : List CommandStatus).map
    CommandStatus.code = [1, 2, 3, 4, 5, 6] ∧
  ([.off, .hunting, .up, .lost] : List LinkState).map LinkState.code = [0, 1, 2, 3] ∧
  ([.command .setpoint, .command .mix, .command .stop, .refresh] : List FrameKind).map FrameKind.code =
    [0xA5, 0xC3, 0x0F, 0x69] ∧
  ∀ (n : LineNo) (rest : List LinkArrival) (s : State), s.room 3 →
    (∀ echo outcome : Byte, linkTurn s n (.answer echo outcome) rest →
      (∀ c, (s.link n).inFlight = some c → c.awaiting = false ∨ c.seq ≠ echo) →
      exec (.answer n) s = .next { s with links := s.links.set n { s.link n with arrivals := rest } }) ∧
    (linkTurn s n .answerExpiry rest → (∀ c, (s.link n).inFlight = some c → c.awaiting = false) →
      exec (.answerTimeout n) s = .next { s with links := s.links.set n { s.link n with arrivals := rest } }) ∧
    ∀ (e : LinkInput) (i : Instr) (c : Command) (status : CommandStatus) (up count : Byte)
      (events : List LinkEvent) (reports : List Report) (k : Link) (posts : List Post),
      linkTurn s n e rest → (s.link n).inFlight = some c → c.awaiting = true →
      up = (if (s.link n).unanswered = 255 then 255 else (s.link n).unanswered + 1) →
      (e = .answer c.seq 0 ∧ i = .answer n ∧ status = .applied ∧ count = 0 ∧ events = [] ∧ reports = [] ∨
        e = .answer c.seq 1 ∧ i = .answer n ∧ status = .refusedLocal ∧ count = 0 ∧
          events = [.refusedLocal c.seq] ∧ reports = [] ∨
        (∃ outcome : Byte, 2 ≤ outcome.toNat ∧ e = .answer c.seq outcome) ∧ i = .answer n ∧
          status = .malformed ∧ count = up ∧ events = [.unanswered count] ∧
          reports =
            [linkReported s n .linkError 5
              (longOf (c.seq.setWidth 16) ((FrameKind.command c.kind).code.setWidth 16))
              (longOf (count.setWidth 16) 1)] ∨
        e = .answerExpiry ∧ i = .answerTimeout n ∧ status = .unanswered ∧ count = up ∧
          events = [.unanswered count] ∧
          reports =
            [linkReported s n .linkError 5
              (longOf (c.seq.setWidth 16) ((FrameKind.command c.kind).code.setWidth 16))
              (longOf (count.setWidth 16) 0)]) →
      k =
        { s.link n with
          arrivals := without rest .answerExpiry
          inFlight := none
          answerTimer := .stopped
          unanswered := count } →
      posts =
        [lastCommand n c.kind c.seq status] ++
          (if count = (s.link n).unanswered ∧ e ≠ .answerExpiry then []
            else [lineWord n 20 (wordOf count (lowByte (s.link n).state.code))]) →
      ((s.link n).pending = [] ∨ (s.link n).wire ≠ .fill ∨ (s.link n).stopWaiting = true →
        exec i s =
          .next (State.postAll
            { s with
              links := s.links.set n k
              lines := told s n events
              freeCount := s.freeCount + reports.length
              report := { s.report with handed := s.report.handed ++ reports } }
            posts)) ∧
      ∀ (h : RequestKind) (t : List RequestKind), (s.link n).pending = h :: t → (s.link n).wire = .fill →
        (s.link n).stopWaiting = false →
        exec i s =
          .next (State.postAll
            (State.sendCommand
              { s with
                links := s.links.set n { k with pending := t }
                lines := told s n events
                freeCount := s.freeCount + reports.length
                report := { s.report with handed := s.report.handed ++ reports } }
              n h.command)
            (posts ++ [lastCommand n h.command (s.link n).downlinkSeq .awaiting]))

/-- RECEIVER_RESTART and REARM (R138, R150): a restart empties the FIFO, clears the overrun, drops the frame in assembly and
has the receiver hunt; a rearm opens the latch on the flags it holds where they are the flags seen, and otherwise takes
the flags seen, closed, with a FLAGS report; both post LATCHED FLAGS. REFRESH_TIMER_EXPIRY and SAMPLE_TIMEOUT (R144,
R146): a refresh is sent at once on a wire with nothing else to send, and is owed otherwise; an UP link whose sample
timer expires is LOST: its word is posted, the supervisor told and LINK_LOST reported. The stage bytes of FLAGS and LINK_LOST
are free values (log 10), and LINK_LOST carries the sample timeout of the image loaded at the expiry (log 19). -/
def Obligations.RestartsRearmsAndTimersOfALink : Prop :=
  (∀ (n : LineNo) (rest : List LinkArrival) (s : State),
     (linkTurn s n .restart rest →
       exec (.receiverRestart n) s =
         .next { s with
           links := s.links.set n
             { s.link n with
               arrivals := rest, fifo := [], overrun := none, assembly := [], huntBits := [],
               receiver := if (s.link n).state = .off then .idle else .hunting } }) ∧
     (linkTurn s n .rearm rest → s.room 1 →
       ((s.link n).flagsSeen = (s.link n).latchedFlags →
         exec (.rearm n) s =
           .next (State.postAll
             { s with links := s.links.set n { s.link n with arrivals := rest, latchOpen := true } }
             [lineWord n 21 (0x8000 ||| (s.link n).latchedFlags.setWidth 16)])) ∧
       ((s.link n).flagsSeen ≠ (s.link n).latchedFlags →
         exec (.rearm n) s =
           .next (State.postAll
             { s with
               links := s.links.set n
                 { s.link n with arrivals := rest, latchOpen := false, latchedFlags := (s.link n).flagsSeen }
               freeCount := s.freeCount + 1
               report := s.reported
                 (linkReported s n .flags 0
                   (longOf ((s.link n).flagsSeen.setWidth 16) ((s.link n).latchedFlags.setWidth 16))
                   (longOf ((s.link n).lastSeq.setWidth 16) 1)) }
             [lineWord n 21 ((s.link n).flagsSeen.setWidth 16)])))) ∧
  (∀ (n : LineNo) (rest : List LinkArrival) (s : State),
     (linkTurn s n .refreshExpiry rest →
       ((s.link n).wire = .fill → (s.link n).pending = [] → (s.link n).stopWaiting = false →
         exec (.refreshTimerExpiry n) s =
           .next (State.sendRefresh { s with links := s.links.set n { s.link n with arrivals := rest } } n)) ∧
       ((s.link n).wire ≠ .fill ∨ (s.link n).pending ≠ [] ∨ (s.link n).stopWaiting = true →
         exec (.refreshTimerExpiry n) s =
           .next { s with links := s.links.set n { s.link n with arrivals := rest, refreshOwed := true } })) ∧
     (linkTurn s n .sampleExpiry rest → s.room 1 →
       ((s.link n).state ≠ .up →
         exec (.sampleTimeout n) s = .next { s with links := s.links.set n { s.link n with arrivals := rest } }) ∧
       ((s.link n).state = .up →
         exec (.sampleTimeout n) s =
           .next (State.postAll
             { s with
               links := s.links.set n { s.link n with arrivals := rest, state := .lost, lostAt := s.clock }
               lines := told s n [.stateChange .lost]
               freeCount := s.freeCount + 1
               report := s.reported
                 (linkReported s n .linkLost 0 (s.link n).lastArrival (longOf (s.config.word 3) 0)) }
             [lineWord n 20 (wordOf (s.link n).unanswered 3)]))))

/-! ### The Report Writer -/

/-- REPORT (R163): the oldest report handed over (12.4, log 9) raises its class; it joins a pending list of fewer than eight; in a full
list a TRIP report takes the place of the newest record of another kind, and any other report, or a TRIP report that
finds nothing else, is lost; either loss sets the lost flag and raises RING. A raise says whether it is that of a line's TRIP
report (log 39). The class of a report is that of its kind (9.1, 9.4): TRIP and an assertion of PLANT STOP raise TRIP;
COMMUNICATION, and HOLD_IMPOSED for COMMUNICATION or a surface leak, raise COMMUNICATION; every other HOLD_IMPOSED and a release
of PLANT STOP raise STAGE_END (R122, R162). -/
def Obligations.AReportIsKeptOrLost : Prop :=
  (∀ r : Report,
     (r.kind = .trip → r.alertClass = .trip) ∧
     (r.kind = .communication → r.alertClass = .communication) ∧
     (r.kind = .stageEnded ∨ r.kind = .bindDone ∨ r.kind = .mixStepped ∨ r.kind = .configLoaded →
       r.alertClass = .stageEnd) ∧
     (r.kind = .linkLost ∨ r.kind = .linkRestored ∨ r.kind = .linkError ∨ r.kind = .flags ∨ r.kind = .meterJump →
       r.alertClass = .link) ∧
     (r.kind = .writeRefused ∨ r.kind = .bindFailed ∨ r.kind = .configRejected → r.alertClass = .refusal) ∧
     (r.kind = .holdImposed →
       r.alertClass = if r.detail = 0x11 ∨ r.detail = 0x12 then .communication else .stageEnd) ∧
     (r.kind = .plantStop → r.alertClass = if lowWord r.valueA = 1 then .trip else .stageEnd)) ∧
  ∀ (r : Report) (rest : List Report) (s : State), s.report.handed = r :: rest →
    (s.report.pending.length < 8 →
      exec .report s =
        .next { s with
          report := { s.report with handed := rest, pending := s.report.pending ++ [r] }
          alert := { s.alert with raises := s.alert.raises ++ [⟨r.alertClass, r.kind == .trip⟩] } }) ∧
    (s.report.pending.length = 8 → (r.kind ≠ .trip ∨ ∀ x ∈ s.report.pending, x.kind = .trip) →
      exec .report s =
        .next { s with
          report := { s.report with handed := rest, lost := true }
          alert := { s.alert with
            raises := s.alert.raises ++ [⟨r.alertClass, r.kind == .trip⟩, ⟨.ring, false⟩] } }) ∧
    ∀ (before after : List Report) (x : Report), s.report.pending.length = 8 → r.kind = .trip →
      s.report.pending = before ++ x :: after → x.kind ≠ .trip → (∀ y ∈ after, y.kind = .trip) →
      exec .report s =
        .next { s with
          report := { s.report with handed := rest, pending := before ++ after ++ [r], lost := true }
          alert := { s.alert with raises := s.alert.raises ++ [⟨.trip, true⟩, ⟨.ring, false⟩] } }

/-- RING_RECORD_WRITE and RING_PLACEMENT (R164, R165, R166): with a ring that has room, and no record in flight, load in
flight or placement waiting, the head record is posted, its eight words at the producer index with the lost flag in it,
the producer index moves on and is posted, and RING is raised at three quarters of the ring; without room nothing
happens. A placement takes the image's ring, clears both indexes and posts both words, once the CONFIG_LOADED report of its
load has been taken into the pending list, and not before. The kinds have the codes of 11.5; a 32-bit quantity is sent as its
low and its high word, and a word is made of its high and its low byte. -/
def Obligations.TheRingTakesRecordsAndIsPlaced : Prop :=
  ([.writeRefused, .bindDone, .bindFailed, .stageEnded, .mixStepped, .meterJump, .trip, .holdImposed, .communication,
      .linkLost, .linkRestored, .linkError, .flags, .plantStop, .configLoaded, .configRejected] : List ReportKind).map
    ReportKind.code = [1, 2, 3, 4, 5, 6, 7, 8, 9, 10, 11, 12, 13, 14, 15, 16] ∧
  (∀ (low high : Word) (l h : Byte),
     (longOf low high).toNat = low.toNat + 65536 * high.toNat ∧ lowWord (longOf low high) = low ∧
     highWord (longOf low high) = high ∧ (wordOf h l).toNat = l.toNat + 256 * h.toNat ∧ lowByte (wordOf h l) = l ∧
     highByte (wordOf h l) = h) ∧
  ∀ s : State, s.busy .report = false → s.report.inFlight = none →
    (∀ (ring : Ring) (rec : Report) (rest : List Report),
      s.report.ring = some ring → s.report.pending = rec :: rest → s.report.paused = false →
      s.report.placement = false → s.report.consumer < ring.size →
      ((s.report.producer + 1) % ring.size = s.report.consumer → exec .ringRecordWrite s = .next s) ∧
      ∀ (next base : Nat) (at_ : Nat → Addr) (w : List Word),
        next = (s.report.producer + 1) % ring.size → next ≠ s.report.consumer → s.room 9 →
        base = ring.base + 16 * s.report.producer → (∀ k, at_ k = BitVec.ofNat 20 (base + 2 * k)) →
        w =
          [(if s.report.lost then 0x8000 else 0) ||| (rec.detail.setWidth 16 <<< 8) ||| rec.kind.code.setWidth 16,
            wordOf rec.stage rec.line, lowWord rec.time, highWord rec.time, lowWord rec.valueA,
            highWord rec.valueA, lowWord rec.valueB, highWord rec.valueB] →
        exec .ringRecordWrite s =
          .next (State.postAll
            { s with
              report := { s.report with pending := rest, lost := false, producer := next }
              alert := if 3 * (ring.size - 1) / 4 ≤ (next + ring.size - s.report.consumer) % ring.size
                then { s.alert with raises := s.alert.raises ++ [⟨.ring, false⟩] } else s.alert }
            [⟨at_ 0, w.getD 0 0⟩, ⟨at_ 1, w.getD 1 0⟩, ⟨at_ 2, w.getD 2 0⟩, ⟨at_ 3, w.getD 3 0⟩,
              ⟨at_ 4, w.getD 4 0⟩, ⟨at_ 5, w.getD 5 0⟩, ⟨at_ 6, w.getD 6 0⟩, ⟨at_ 7, w.getD 7 0⟩,
              statusWord 9 (BitVec.ofNat 16 next)])) ∧
    ((∃ r ∈ s.report.handed, r.kind = .configLoaded) → exec .ringPlacement s = .next s) ∧
    (s.report.placement = true → s.room 2 → (∀ r ∈ s.report.handed, r.kind ≠ .configLoaded) →
      (∀ w, s.cycle = .write w → wordAddr w.addr ≠ statusAddr 5) →
      (∀ old, s.oldRing = some old → ∀ p ∈ s.queue, old.contains p.addr.toNat = false) →
      exec .ringPlacement s =
        .next (State.postAll
          { s with
            oldRing := none
            report := { s.report with
              ring := s.config.image.map ringOf, producer := 0, consumer := 0, placement := false } }
          [statusWord 9 0, statusWord 5 0]))

/-! ### The Configuration Unit -/

/-- LOAD_CONFIG (R169): refused BUSY while a load is in flight, or while LOADED with a ring placement pending; otherwise the
load starts: LOADING, an empty load image, the load job at the end of the reader's list, the Report Writer paused, and
both words posted. -/
def Obligations.LoadConfigStartsALoad : Prop :=
  ∀ (arg : Byte) (s : State),
    s.cycle = .idle → s.busy .config = false → (∀ n, s.noOwn n) → s.room 2 →
    ((s.config.load = .loading ∨ s.config.load = .loaded ∧ s.report.placement = true) →
      exec (.loadConfig arg) s =
        .next (State.postAll { s with cycle := .write (fullWrite 0xFF840 (wordOf 4 arg)) } [statusWord 1 0x0405])) ∧
    (s.config.load ≠ .loading → (s.config.load ≠ .loaded ∨ s.report.placement = false) →
      exec (.loadConfig arg) s =
        .next (State.postAll
          { s with
            cycle := .write (fullWrite 0xFF840 (wordOf 4 arg))
            config := { s.config with load := .loading, loadImage := some (Vector.replicate 12 0) }
            jobs := s.jobs ++ [.load 0]
            report := { s.report with paused := true } }
          [statusWord 4 1, statusWord 1 0x0402]))

/-- LOAD_JOB_COMPLETE (R171, R173, R174, R166, R151): a load image that fails its checks is REJECTED with the word and step of
the first failure, the loaded image staying in force; one that passes becomes the loaded image, with a placement to
follow where the ring is new or moved. Both post their two words and report, and let the Report Writer go on; a load that
passed notifies the Alert Controller and each Field Link Controller, and a changed sync code has every receiver of a link
that is not OFF hunt, even behind a wait (log 27). The controllers then take their notices in the same step, in ascending line
number (both are log 13's, DESIGN CHOICE). The checks (R168, R171, R172) are the sum, the ranges of words 0 to 10, the overlaps, and, with a line in
use, the rate, the sync code, the table base and that line's enable flag. -/
def Obligations.ALoadIsRejectedOrAccepted : Prop :=
  (∀ (s : State) (i : Vector Word 12),
    (checkSum i.toList ≠ 0 → s.loadFailure i = some ⟨11, 1, checkSum i.toList⟩) ∧
    (checkSum i.toList = 0 →
      (∀ k : Fin 12, k.val < 11 → ¬ configWordHolds k.val i[k] →
        (∀ j : Fin 12, j.val < k.val → configWordHolds j.val i[j]) → s.loadFailure i = some ⟨k.val, 2, i[k]⟩) ∧
      ((∀ j : Fin 12, j.val < 11 → configWordHolds j.val i[j]) →
        (0xFF800 < i[9].toNat * 16 + i[10].toNat * 16 → s.loadFailure i = some ⟨10, 3, i[10]⟩) ∧
        (i[9].toNat * 16 + i[10].toNat * 16 ≤ 0xFF800 →
          (areasMeet i → s.loadFailure i = some ⟨9, 3, i[9]⟩) ∧
          (¬ areasMeet i →
            ((∀ n, ¬ inUse s n) → s.loadFailure i = none) ∧
            ∀ used : LineNo, inUse s used →
              (i[1] ≠ s.config.word 1 → s.loadFailure i = some ⟨1, 4, i[1]⟩) ∧
              (i[1] = s.config.word 1 → lowByte i[2] ≠ lowByte (s.config.word 2) →
                s.loadFailure i = some ⟨2, 4, i[2]⟩) ∧
              (i[1] = s.config.word 1 → lowByte i[2] = lowByte (s.config.word 2) →
                (i[8] ≠ s.config.word 8 → s.loadFailure i = some ⟨8, 4, i[8]⟩) ∧
                (i[8] = s.config.word 8 →
                  (i[0].getLsbD used.val ≠ s.config.enabled used → s.loadFailure i = some ⟨0, 4, i[0]⟩) ∧
                  ((∀ n : LineNo, inUse s n → i[0].getLsbD n.val = s.config.enabled n) →
                    s.loadFailure i = none)))))))) ∧
  ∀ (k : Nat) (i : Vector Word 12) (s : State),
    s.busy .config = false → s.room 2 → s.config.jobDone = k + 1 → s.config.loadImage = some i →
    (∀ f : LoadFailure, s.loadFailure i = some f → (∀ n, s.noOwn n) →
      exec .loadJobComplete s =
        .next (State.postAll
          { s with
            config := { s.config with jobDone := k, load := .rejected f.word f.step, loadImage := none }
            report := { s.report with
              paused := false
              placement := false
              handed := s.report.handed ++
                [{ kind := .configRejected, time := s.clock,
                   valueA := longOf (BitVec.ofNat 16 f.word) (BitVec.ofNat 16 f.step),
                   valueB := longOf f.found 0 }] } }
          [statusWord 4 (3 ||| (BitVec.ofNat 16 f.word <<< 4) ||| (BitVec.ofNat 16 f.step <<< 8)),
            statusWord 1 0x0406])) ∧
    (s.loadFailure i = none →
      ∀ moved : Bool, (moved = true ↔ s.config.image.map ringOf ≠ some (ringOf i)) →
      exec .loadJobComplete s =
        .next (State.flushAll (State.postAll
          { s with
            config := { image := some i, load := .loaded, loadImage := none, jobDone := k }
            oldRing := if moved then s.config.image.map ringOf else none
            alert := { s.alert with loadNotices := s.alert.loadNotices + 1 }
            report := { s.report with
              paused := false
              placement := moved
              handed := s.report.handed ++
                [{ kind := .configLoaded, time := s.clock, valueA := longOf i[0] i[10], valueB := longOf i[8] i[9] }] }
            links := s.links.map fun l =>
              { l with
                arrivals := l.arrivals ++ [⟨.notice, false⟩]
                receiver := if l.state ≠ .off ∧ lowByte i[2] ≠ lowByte (s.config.word 2) then .hunting else l.receiver
                huntBits := if l.state ≠ .off ∧ lowByte i[2] ≠ lowByte (s.config.word 2) then [] else l.huntBits
                assembly := if l.state ≠ .off ∧ lowByte i[2] ≠ lowByte (s.config.word 2) then [] else l.assembly } }
          [statusWord 4 2, statusWord 1 0x0401])))

/-- The notice of a new image at a Field Link Controller (R146, R147, R151, R148): an OFF link of an enabled line hunts with
its watch and refresh timers started, posts LINK STATE and tells its supervisor; a link of a disabled line goes OFF with
every part of it cleared but its sequence, its unanswered count, its rate, the time and the sequence of its last sample, the
time of its loss and its supervisor's events (that what the receiver and the timers sent is dropped is log 25's), a command in
flight posted as superseded, both words posted and its supervisor told; a link that stays takes the new rate while it sends fill.
A line is enabled by its bit of word 0 of the loaded image, and before a load no line is (R168). -/
def Obligations.ANoticeTurnsALinkOnOrOff : Prop :=
  (∀ (c : ConfigUnit) (n : LineNo) (k : Fin 12),
     (c.image = none → c.enabled n = false ∧ c.word k = 0) ∧
     ∀ i, c.image = some i → c.enabled n = i[0].getLsbD n.val ∧ c.word k = i[k]) ∧
  ∀ (n : LineNo) (rest : List LinkArrival) (s : State),
    s.busy (.link n) = false → (s.link n).arrivals = rest ++ [⟨.notice, false⟩] →
    (∀ a ∈ rest, a.waited = false ∧ a.input.source ≠ .own) → s.room 3 →
    (s.config.enabled n = true → (s.link n).state = .off →
      s.flush n =
        State.postAll
          { s with
            links := s.links.set n
              { s.link n with
                arrivals := rest, state := .hunting, watch := .present, watchTimer := .running 1, watchExpiry := none,
                receiver := .hunting, huntBits := [], assembly := [], wire := .fill, wireRate := s.config.word 1,
                refreshTimer := .running (s.config.word 5).toNat }
            lines := told s n [.stateChange .hunting] }
          [lineWord n 20 (wordOf (s.link n).unanswered 1)]) ∧
    (s.config.enabled n = true → (s.link n).state ≠ .off →
      s.flush n =
        { s with
          links := s.links.set n
            { s.link n with
              arrivals := rest
              wireRate := if (s.link n).wire = .fill then s.config.word 1 else (s.link n).wireRate } }) ∧
    (s.config.enabled n = false → (s.link n).state = .off →
      s.flush n = { s with links := s.links.set n { s.link n with arrivals := rest } }) ∧
    (s.config.enabled n = false → (s.link n).state ≠ .off →
      s.flush n =
        State.postAll
          { s with
            links := s.links.set n
              { ({} : Link) with
                wireRate := (s.link n).wireRate, downlinkSeq := (s.link n).downlinkSeq,
                unanswered := (s.link n).unanswered, lastArrival := (s.link n).lastArrival,
                lastSeq := (s.link n).lastSeq, lostAt := (s.link n).lostAt,
                arrivals := rest.filter fun a => a.input.source == .supervisor }
            lines := told s n [.stateChange .off] }
          ((match (s.link n).inFlight with
              | some c => [lastCommand n c.kind c.seq .superseded]
              | none => []) ++
            [lineWord n 21 0x8000, lineWord n 20 (wordOf (s.link n).unanswered 0)]))

/-! ### Formats -/

/-- R176: a check sum is the sum of the words modulo 65536. -/
def Obligations.ACheckSumIsTheSumModulo65536 : Prop :=
  (∀ ws : List Word, (checkSum ws).toNat = (ws.map BitVec.toNat).sum % 65536) ∧
  (∀ f : Filling, f.sum = checkSum (f.words.toList ++ [f.check])) ∧
  (∀ (st : StageNo) (f : Filling),
    f.sum ≠ 0 ↔ ∃ e, validateCopy st f = some e ∧ e.reason = .recordCheck) ∧
  (∀ i : Vector Word 12, checkFailure i = none ↔ checkSum i.toList = 0) ∧
  ∀ (ws : List Word) (check : Word), checkSum (ws ++ [check]) = 0 ↔ check = 0 - checkSum ws

/-- R177: the CRC register starts at FFFFh, takes each character in bits 8 to 15 by exclusive-or, and is stepped eight
times, a set bit 15 bringing in 1021h; the CRC is sent and compared high byte first. With two worked values. -/
def Obligations.TheFrameCrcIsComputedByItsRegister : Prop :=
  crc [] = 0xFFFF ∧
  (∀ (chars : List Byte) (c : Byte), crc (chars ++ [c]) = crcChar (crc chars) c) ∧
  (∀ (r : Word) (c : Byte), crcChar r c = Nat.repeat crcShift 8 (r ^^^ (c.setWidth 16 <<< 8))) ∧
  (∀ r : Word, crcShift r = if r.getLsbD 15 then (r <<< 1) ^^^ 0x1021 else r <<< 1) ∧
  (∀ (sync seq : Byte) (kind : FrameKind) (payload : List Byte),
    frameChars sync kind seq payload =
      [sync, sync, kind.code, seq] ++ payload ++
        [highByte (crc (kind.code :: seq :: payload)), lowByte (crc (kind.code :: seq :: payload))]) ∧
  (∀ frame : List Byte,
    receivedCrc frame = wordOf (frame.getD (frame.length - 2) 0) (frame.getD (frame.length - 1) 0) ∧
    computedCrc frame = crc (frame.take (frame.length - 2))) ∧
  crc [0x31, 0x32, 0x33, 0x34, 0x35, 0x36, 0x37, 0x38, 0x39] = 0x29B1 ∧
  crc [0x0F, 0x00] = 0x0D31

/-! ### Invariants -/

/-- The invariants below hold in the state right after reset, which is what RESET makes of the cleared machine (R175; the
order of the start-up posts is log 7's). -/
def Obligations.TheInvariantsHoldAfterReset : Prop :=
  exec (.reset []) State.cleared = .next State.reset ∧
  Canonical State.reset ∧ QueueSound State.reset ∧ RunSound State.reset ∧ ListsSound State.reset ∧
  Corresponds State.reset ∧ LinesSound State.reset ∧ PlantHeld State.reset ∧ HostSound State.reset

/-- Every step keeps the memory in its canonical form (log 3). -/
def Obligations.EveryStepKeepsTheMemoryCanonical : Prop :=
  ∀ s t : State, Canonical s → step s = .next t → Canonical t

/-- Every step keeps the insert queue within 16 entries, one for an address, with drain mode on from 12 entries and off
at four (R23, R24, R25); and the FIFO, PENDING and the report list within their sizes (R137, R139, R163). -/
def Obligations.EveryStepKeepsTheQueuesWithinTheirRules : Prop :=
  (∀ s t : State, QueueSound s → step s = .next t → QueueSound t) ∧
  ∀ s t : State, ListsSound s → step s = .next t → ListsSound t

/-- R43: every step keeps the Binding Table and the line contexts in correspondence: a stage is held by the line whose
stage it is, and in the phase of its state. -/
def Obligations.EveryStepKeepsTheBindingTableCorresponding : Prop :=
  ∀ s t : State, Corresponds s → step s = .next t → Corresponds t

/-- Every step keeps the rules of every line's state (R42, R52, R77, R79, R81, R100, R104, R123). -/
def Obligations.EveryStepKeepsTheRulesOfEveryLine : Prop :=
  ∀ s t : State, LinesSound s → step s = .next t → LinesSound t

/-- R158, R161: PLANT STOP stays asserted until an image is loaded, and it is released only by the notice of a load, from
cause RESET, or by RELEASE_STOP with an image loaded, TRIP not pending nor on its way (log 39) and no line INJECTING or
CLOSING. -/
def Obligations.PlantStopIsReleasedOnlyOnItsConditions : Prop :=
  (∀ s t : State, PlantHeld s → step s = .next t → PlantHeld t) ∧
  ∀ (c : Instr) (s t : State), exec c s = .next t → s.alert.plantStop ≠ none → t.alert.plantStop = none →
    (c = .loadNotice ∧ s.alert.plantStop = some .reset) ∨
    ((∃ arg, rowOf c = .releaseStop arg) ∧ s.config.image ≠ none ∧ s.alert.pending.getLsbD 0 = false ∧
      ¬ tripComes s ∧ ∀ n, (s.line n).state.flowing = false)

/-- R6, R7, R8: no host write ever reaches a part-owned word, the Ring class or the record of a held stage: no command but
INSERT_QUEUE_DRAIN changes a byte of them. Stated with the invariant, which every command keeps, that the host cycle is
never one that may write a part-owned word and that an old ring's base is a multiple of 16 (R3). That bit 0 of an address is
dropped is log 26's (DESIGN CHOICE). -/
def Obligations.TheHostWritesOnlyWhatItMay : Prop :=
  ∀ (c : Instr) (s t : State), HostSound s → exec c s = .next t →
    HostSound t ∧
    (c ≠ .insertQueueDrain → ∀ a : Addr,
      (classify (wordAddr a) = .partOwned ∨
        (classify (wordAddr a) = .below ∧ s.ringClass a = true) ∨
        (classify (wordAddr a) = .below ∧ ∃ st, s.stageOf a = some st ∧ s.bindingOf st ≠ none)) →
      Memory.get t.mem a.toNat = Memory.get s.mem a.toNat)

/-- Section 4.2: ENDED and TRIPPED are left only by RELEASE, to VACANT, or by RESET (R57, R68, R175); a line comes to inject only
by START from BOUND or RESUME from HOLDING, with the link UP, PLANT STOP released and LOCAL_STOP clear (R64, R66). -/
def Obligations.ALineInjectsAndIsFreedOnlyByItsCommands : Prop :=
  ∀ (c : Instr) (n : LineNo) (s t : State), exec c s = .next t →
    ((s.line n).state = .ended ∨ (s.line n).state = .tripped →
      (t.line n).state = (s.line n).state ∨
      ((t.line n).state = .vacant ∧ ((∃ arg, rowOf c = .release n arg) ∨ ∃ order, c = .reset order))) ∧
    ((s.line n).state.flowing = false → (t.line n).state.flowing = true →
      (s.line n).linkCopy = .up ∧ s.alert.plantStop = none ∧ (s.line n).flags.getLsbD 1 = false ∧
      (((s.line n).state = .bound ∧ ∃ arg, rowOf c = .start n arg) ∨
        ((s.line n).state = .holding ∧ ∃ arg, rowOf c = .resume n arg)))

end Statements
end

