-- ==== Sys2Proof/Laws/Checks.lean ====
section
/-! SUPPORT. The checks on words and samples, each against the table or the formula of its rule. -/

namespace Sys2Proof.Machine

/-! ### The words of a record and of an image -/

/-- R37: a neighbour entry within the count. -/
theorem neighbourOk_iff (st : StageNo) (v : Nat → Nat) (k : Nat) (low : 19 ≤ k) (high : k ≤ 22) :
    neighbourOk st v k = true ↔
      (k ≤ 18 + v 18 → v k ≤ 63 ∧ v k ≠ st.val ∧ ∀ j, j < k → 19 ≤ j → v j ≠ v k) := by
  simp only [neighbourOk, Bool.or_eq_true, Bool.and_eq_true, decide_eq_true_eq, List.all_eq_true, List.mem_range,
    bne_iff_ne]
  constructor
  · intro h hk
    rcases h with h | ⟨⟨h, hs⟩, hn⟩
    · omega
    · refine ⟨by omega, hs, fun j hj h19 => ?_⟩
      have := hn (j - 19) (by omega)
      rw [show 19 + (j - 19) = j by omega] at this
      exact this.resolve_left (by omega)
  · intro h
    by_cases hk : k ≤ 18 + v 18
    · obtain ⟨h1, h2, h3⟩ := h hk
      refine .inr ⟨⟨by omega, h2⟩, fun j hj => ?_⟩
      by_cases hj' : k ≤ 19 + j
      · exact .inl hj'
      · exact .inr (h3 _ (by omega) (by omega))
    · exact .inl (by omega)

/-- R36 to R38: the test of a word of a stage copy is the condition of its row. -/
theorem fieldOk_iff (st : StageNo) (v : Nat → Nat) (k : Nat) (hk : k < 38) :
    fieldOk st v k = true ↔ recordWordHolds st v k := by
  have hn := neighbourOk_iff st v k
  unfold recordWordHolds
  interval_cases k <;>
    simp (config := { decide := true }) [fieldOk, inRange, mixOk] at hn ⊢ <;>
    first | exact hn | omega

/-- The bits outside 2 to 5 are clear (R168, word 7). -/
theorem maskOk_iff (w : Word) : w &&& 65475#16 = 0#16 ↔ ∀ b, b < 16 → w.getLsbD b = true → 2 ≤ b ∧ b ≤ 5 := by
  constructor
  · intro h b hb hw
    have hbit : (w.getLsbD b && (65475#16).getLsbD b) = false := by rw [← BitVec.getLsbD_and, h]; simp
    rw [hw, Bool.true_and] at hbit
    revert hbit
    interval_cases b <;> decide
  · intro h
    apply BitVec.eq_of_getLsbD_eq
    intro b hb
    rw [BitVec.getLsbD_and, BitVec.getLsbD_zero]
    cases hw : w.getLsbD b with
    | false => rfl
    | true =>
      have := h b hb hw
      rw [Bool.true_and]
      interval_cases b <;> first | rfl | omega

/-- R168: the test of a configuration word is the range of its row. -/
theorem wordInRange_iff (k : Nat) (w : Word) (hk : k < 11) : wordInRange k w = true ↔ configWordHolds k w := by
  have hm := maskOk_iff w
  unfold configWordHolds
  interval_cases k <;>
    simp (config := { decide := true }) [wordInRange, syncInRange, sampleKind, answerKind] at hm ⊢ <;>
    first | exact hm | simp only [and_assoc]

/-! ### The alert level -/

/-- A bit of the pending classes that are not masked (R155). -/
theorem unmasked_bit (p : BitVec 6) (m : Word) (b : Nat) (hb : b < 6) :
    (p &&& ~~~((m &&& 0x003C).setWidth 6)).getLsbD b = (p.getLsbD b && (decide (b < 2) || !m.getLsbD b)) := by
  interval_cases b <;> simp

/-- R155: ALERT is on while TRIP or COMMUNICATION is pending, or another class that the mask does not hold. -/
theorem alertLevel_iff (p : BitVec 6) (m : Word) :
    alertLevel p m = true ↔
      p.getLsbD 0 = true ∨ p.getLsbD 1 = true ∨
        ∃ k, 2 ≤ k ∧ k < 6 ∧ p.getLsbD k = true ∧ m.getLsbD k = false := by
  unfold alertLevel
  rw [decide_eq_true_eq]
  constructor
  · intro h
    by_contra hc
    refine h (BitVec.eq_of_getLsbD_eq fun b hb => ?_)
    rw [unmasked_bit p m b hb, show BitVec.getLsbD (0 : BitVec 6) b = false from BitVec.getLsbD_zero]
    by_contra hbit
    have hbit : p.getLsbD b = true ∧ (1 < b → m.getLsbD b = false) := by simpa using hbit
    apply hc
    by_cases h2 : 2 ≤ b
    · exact .inr (.inr ⟨b, h2, hb, hbit.1, hbit.2 (by omega)⟩)
    · have h01 : b = 0 ∨ b = 1 := by omega
      rcases h01 with rfl | rfl
      · exact .inl hbit.1
      · exact .inr (.inl hbit.1)
  · intro h hz
    have hbit (b : Nat) (hb : b < 6) := unmasked_bit p m b hb
    rw [hz] at hbit
    rcases h with h | h | ⟨k, h2, h6, hp, hm⟩
    · exact absurd (hbit 0 (by decide)) (by rw [h]; simp)
    · exact absurd (hbit 1 (by decide)) (by rw [h]; simp)
    · exact absurd (hbit k h6) (by rw [hp, hm]; simp)

/-! ### The peak pair -/

/-- R114: the peak pair is the first of the pairs of highest pressure. -/
theorem peakPair_of_split (before after : List (Word × Word)) (pk : Word × Word)
    (hb : ∀ q ∈ before, q.1 < pk.1) (ha : ∀ q ∈ after, q.1 ≤ pk.1) :
    peakPair (before ++ pk :: after) = pk := by
  have keep : ∀ (l : List (Word × Word)), (∀ q ∈ l, q.1 ≤ pk.1) →
      l.foldl (fun best q => if best.1 < q.1 then q else best) pk = pk := by
    intro l
    induction l with
    | nil => intro _; rfl
    | cons q l ih =>
      intro h
      rw [List.foldl_cons, if_neg (BitVec.not_lt.mpr (h q (by simp)))]
      exact ih fun r hr => h r (by simp [hr])
  have climb : ∀ (l : List (Word × Word)) (best : Word × Word), best.1 < pk.1 → (∀ q ∈ l, q.1 < pk.1) →
      (l.foldl (fun best q => if best.1 < q.1 then q else best) best).1 < pk.1 := by
    intro l
    induction l with
    | nil => intro best h _; exact h
    | cons q l ih =>
      intro best h hl
      rw [List.foldl_cons]
      apply ih
      · split
        · exact hl q (by simp)
        · exact h
      · exact fun r hr => hl r (by simp [hr])
  cases before with
  | nil => exact keep after ha
  | cons q l =>
    change (l ++ pk :: after).foldl _ q = pk
    rw [List.foldl_append, List.foldl_cons, if_pos]
    · exact keep after ha
    · exact climb l q (hb q (by simp)) fun r hr => hb r (by simp [hr])

end Sys2Proof.Machine
end

