-- ==== Sys2Proof/Laws/Queue.lean ====
section
/-! SUPPORT. What accepting a post does to the insert queue (R24, R25). -/

namespace Sys2Proof.Machine

theorem queued_iff (q : List Post) (a : Addr) : queued q a = true ↔ ∃ p ∈ q, p.addr = a := by
  simp [queued]

theorem mem_joinQueue (q : List Post) (p e : Post) :
    e ∈ joinQueue q p ↔ (e ∈ q ∧ e.addr ≠ p.addr) ∨ e = p := by
  simp [joinQueue]

/-- An accepted post adds one entry at most. -/
theorem joinQueue_length_le (q : List Post) (p : Post) : (joinQueue q p).length ≤ q.length + 1 := by
  have := List.length_filter_le (fun e : Post => e.addr != p.addr) q
  simpa [joinQueue] using this

/-- A post whose address is queued adds none. -/
theorem joinQueue_length_queued (q : List Post) (p : Post) (h : queued q p.addr = true) :
    (joinQueue q p).length ≤ q.length := by
  obtain ⟨e, he, ha⟩ := (queued_iff q p.addr).mp h
  have : (q.filter (fun e => e.addr != p.addr)).length < q.length := by
    rw [List.length_filter_lt_length_iff_exists]
    exact ⟨e, he, by simp [ha]⟩
  simp only [joinQueue, List.length_append, List.length_cons, List.length_nil]
  omega

/-- An accepted post adds its address to those queued, and removes none. -/
theorem queued_joinQueue (q : List Post) (p : Post) (a : Addr) :
    queued (joinQueue q p) a = (queued q a || p.addr == a) := by
  rw [Bool.eq_iff_iff, Bool.or_eq_true, beq_iff_eq, queued_iff, queued_iff]
  constructor
  · rintro ⟨e, he, rfl⟩
    rcases (mem_joinQueue _ _ _).mp he with ⟨he, -⟩ | rfl
    · exact .inl ⟨e, he, rfl⟩
    · exact .inr rfl
  · intro hor
    by_cases hpa : p.addr = a
    · exact ⟨p, (mem_joinQueue _ _ _).mpr (.inr rfl), hpa⟩
    · obtain ⟨e, he, rfl⟩ := hor.resolve_right hpa
      exact ⟨e, (mem_joinQueue _ _ _).mpr (.inl ⟨he, fun h => hpa h.symm⟩), rfl⟩

/-- Where no two entries have one address, a post whose address is queued takes the place of one entry. -/
theorem joinQueue_length_eq (q : List Post) (p : Post) (hn : (q.map Post.addr).Nodup)
    (hq : queued q p.addr = true) : (joinQueue q p).length = q.length := by
  induction q with
  | nil => simp [queued] at hq
  | cons e rest ih =>
    simp only [List.map_cons, List.nodup_cons] at hn
    by_cases he : e.addr = p.addr
    · have : rest.filter (fun x => x.addr != p.addr) = rest := by
        rw [List.filter_eq_self]
        intro x hx
        rw [bne_iff_ne]
        exact fun h => hn.1 (by rw [he, ← h]; exact List.mem_map_of_mem hx)
      simp [joinQueue, he, this]
    · have hi := ih hn.2 (by simpa [queued, he] using hq)
      simp only [joinQueue, List.length_append, List.length_singleton] at hi ⊢
      rw [List.filter_cons_of_pos (by simpa using he)]
      simp only [List.length_cons]
      omega

/-- A post whose address is not queued leaves the entries before it as they are. -/
theorem joinQueue_of_not_queued (q : List Post) (p : Post) (h : queued q p.addr = false) :
    joinQueue q p = q ++ [p] := by
  have : q.filter (fun e => e.addr != p.addr) = q := by
    rw [List.filter_eq_self]
    intro e he
    have h' : ¬ ∃ e ∈ q, e.addr = p.addr := by
      rw [← queued_iff, h]
      simp
    simpa using fun ha => h' ⟨e, he, ha⟩
  simp [joinQueue, this]

theorem joinQueue_length_not_queued (q : List Post) (p : Post) (h : queued q p.addr = false) :
    (joinQueue q p).length = q.length + 1 := by
  simp [joinQueue_of_not_queued q p h]

/-- No two entries for one address: kept by an accepted post. -/
theorem joinQueue_nodup (q : List Post) (p : Post) (h : (q.map Post.addr).Nodup) :
    ((joinQueue q p).map Post.addr).Nodup := by
  have hf : ((q.filter (fun e => e.addr != p.addr)).map Post.addr).Nodup :=
    h.sublist (List.Sublist.map _ List.filter_sublist)
  simp only [joinQueue, List.map_append, List.map_cons, List.map_nil]
  rw [List.nodup_append]
  refine ⟨hf, by simp, ?_⟩
  intro a ha b hb
  simp only [List.mem_singleton] at hb
  subst hb
  obtain ⟨e, he, rfl⟩ := List.mem_map.mp ha
  simpa using (List.mem_filter.mp he).2

/-- A read of the address of an accepted post is answered its data. -/
theorem queuedData_joinQueue_same (q : List Post) (p : Post) : queuedData (joinQueue q p) p.addr = some p.data := by
  have : (q.filter (fun e => e.addr != p.addr)).find? (fun e => e.addr == p.addr) = none := by
    rw [List.find?_eq_none]
    intro e he
    simpa using (List.mem_filter.mp he).2
  simp [queuedData, joinQueue, List.find?_append, this]

/-- A read of any other address is answered as before. -/
theorem queuedData_joinQueue_other (q : List Post) (p : Post) {a : Addr} (h : a ≠ p.addr) :
    queuedData (joinQueue q p) a = queuedData q a := by
  have : (q.filter (fun e => e.addr != p.addr)).find? (fun e => e.addr == a) = q.find? (fun e => e.addr == a) := by
    induction q with
    | nil => rfl
    | cons e rest ih =>
      by_cases he : e.addr = p.addr
      · have h' : e.addr ≠ a := fun ha => h (ha ▸ he)
        rw [List.filter_cons_of_neg (by simp [he]), List.find?_cons_of_neg (by simpa using h'), ih]
      · rw [List.filter_cons_of_pos (by simpa using he)]
        by_cases ha : e.addr = a
        · rw [List.find?_cons_of_pos (by simpa using ha), List.find?_cons_of_pos (by simpa using ha)]
        · rw [List.find?_cons_of_neg (by simpa using ha), List.find?_cons_of_neg (by simpa using ha), ih]
  have hp : ¬ (p.addr == a) = true := by simpa using Ne.symm h
  simp only [queuedData, joinQueue, List.find?_append, this, List.find?_cons, hp, List.find?_nil, Option.or_none]

/-- A post that is taken leaves the queue within its capacity. -/
theorem State.accept_length_le (s : State) (p : Post) (ht : s.takesPost p = true)
    (hl : s.queue.length ≤ Config.queueCapacity) : (s.accept p).queue.length ≤ Config.queueCapacity := by
  simp only [State.takesPost, Bool.or_eq_true, decide_eq_true_eq] at ht
  rcases ht with h | h
  · exact le_trans (joinQueue_length_queued _ _ h) hl
  · exact le_trans (joinQueue_length_le _ _) h

end Sys2Proof.Machine
end

