-- ==== Sys2Proof/Laws/State.lean ====
section
/-! SUPPORT. What each update of `State` does to each field, one lemma each, and reading a line, a link or a binding after
an update of one. -/

namespace Sys2Proof.Machine

/-! ### `State.setLine` -/

@[simp] theorem State.setLine_pending (s : State) (n : LineNo) (l : Line) : (s.setLine n l).pending = s.pending := rfl
@[simp] theorem State.setLine_mem (s : State) (n : LineNo) (l : Line) : (s.setLine n l).mem = s.mem := rfl
@[simp] theorem State.setLine_clock (s : State) (n : LineNo) (l : Line) : (s.setLine n l).clock = s.clock := rfl
@[simp] theorem State.setLine_freeCount (s : State) (n : LineNo) (l : Line) : (s.setLine n l).freeCount = s.freeCount := rfl
@[simp] theorem State.setLine_cycle (s : State) (n : LineNo) (l : Line) : (s.setLine n l).cycle = s.cycle := rfl
@[simp] theorem State.setLine_hostData (s : State) (n : LineNo) (l : Line) : (s.setLine n l).hostData = s.hostData := rfl
@[simp] theorem State.setLine_refusal (s : State) (n : LineNo) (l : Line) : (s.setLine n l).refusal = s.refusal := rfl
@[simp] theorem State.setLine_oldRing (s : State) (n : LineNo) (l : Line) : (s.setLine n l).oldRing = s.oldRing := rfl
@[simp] theorem State.setLine_port (s : State) (n : LineNo) (l : Line) : (s.setLine n l).port = s.port := rfl
@[simp] theorem State.setLine_queue (s : State) (n : LineNo) (l : Line) : (s.setLine n l).queue = s.queue := rfl
@[simp] theorem State.setLine_waiting (s : State) (n : LineNo) (l : Line) : (s.setLine n l).waiting = s.waiting := rfl
@[simp] theorem State.setLine_drain (s : State) (n : LineNo) (l : Line) : (s.setLine n l).drain = s.drain := rfl
@[simp] theorem State.setLine_runCount (s : State) (n : LineNo) (l : Line) : (s.setLine n l).runCount = s.runCount := rfl
@[simp] theorem State.setLine_jobs (s : State) (n : LineNo) (l : Line) : (s.setLine n l).jobs = s.jobs := rfl
@[simp] theorem State.setLine_binding (s : State) (n : LineNo) (l : Line) : (s.setLine n l).binding = s.binding := rfl
@[simp] theorem State.setLine_lines (s : State) (n : LineNo) (l : Line) : (s.setLine n l).lines = s.lines.set n l := rfl
@[simp] theorem State.setLine_links (s : State) (n : LineNo) (l : Line) : (s.setLine n l).links = s.links := rfl
@[simp] theorem State.setLine_observations (s : State) (n : LineNo) (l : Line) : (s.setLine n l).observations = s.observations := rfl
@[simp] theorem State.setLine_alert (s : State) (n : LineNo) (l : Line) : (s.setLine n l).alert = s.alert := rfl
@[simp] theorem State.setLine_report (s : State) (n : LineNo) (l : Line) : (s.setLine n l).report = s.report := rfl
@[simp] theorem State.setLine_config (s : State) (n : LineNo) (l : Line) : (s.setLine n l).config = s.config := rfl

/-! ### `State.setLink` -/

@[simp] theorem State.setLink_pending (s : State) (n : LineNo) (k : Link) : (s.setLink n k).pending = s.pending := rfl
@[simp] theorem State.setLink_mem (s : State) (n : LineNo) (k : Link) : (s.setLink n k).mem = s.mem := rfl
@[simp] theorem State.setLink_clock (s : State) (n : LineNo) (k : Link) : (s.setLink n k).clock = s.clock := rfl
@[simp] theorem State.setLink_freeCount (s : State) (n : LineNo) (k : Link) : (s.setLink n k).freeCount = s.freeCount := rfl
@[simp] theorem State.setLink_cycle (s : State) (n : LineNo) (k : Link) : (s.setLink n k).cycle = s.cycle := rfl
@[simp] theorem State.setLink_hostData (s : State) (n : LineNo) (k : Link) : (s.setLink n k).hostData = s.hostData := rfl
@[simp] theorem State.setLink_refusal (s : State) (n : LineNo) (k : Link) : (s.setLink n k).refusal = s.refusal := rfl
@[simp] theorem State.setLink_oldRing (s : State) (n : LineNo) (k : Link) : (s.setLink n k).oldRing = s.oldRing := rfl
@[simp] theorem State.setLink_port (s : State) (n : LineNo) (k : Link) : (s.setLink n k).port = s.port := rfl
@[simp] theorem State.setLink_queue (s : State) (n : LineNo) (k : Link) : (s.setLink n k).queue = s.queue := rfl
@[simp] theorem State.setLink_waiting (s : State) (n : LineNo) (k : Link) : (s.setLink n k).waiting = s.waiting := rfl
@[simp] theorem State.setLink_drain (s : State) (n : LineNo) (k : Link) : (s.setLink n k).drain = s.drain := rfl
@[simp] theorem State.setLink_runCount (s : State) (n : LineNo) (k : Link) : (s.setLink n k).runCount = s.runCount := rfl
@[simp] theorem State.setLink_jobs (s : State) (n : LineNo) (k : Link) : (s.setLink n k).jobs = s.jobs := rfl
@[simp] theorem State.setLink_binding (s : State) (n : LineNo) (k : Link) : (s.setLink n k).binding = s.binding := rfl
@[simp] theorem State.setLink_lines (s : State) (n : LineNo) (k : Link) : (s.setLink n k).lines = s.lines := rfl
@[simp] theorem State.setLink_links (s : State) (n : LineNo) (k : Link) : (s.setLink n k).links = s.links.set n k := rfl
@[simp] theorem State.setLink_observations (s : State) (n : LineNo) (k : Link) : (s.setLink n k).observations = s.observations := rfl
@[simp] theorem State.setLink_alert (s : State) (n : LineNo) (k : Link) : (s.setLink n k).alert = s.alert := rfl
@[simp] theorem State.setLink_report (s : State) (n : LineNo) (k : Link) : (s.setLink n k).report = s.report := rfl
@[simp] theorem State.setLink_config (s : State) (n : LineNo) (k : Link) : (s.setLink n k).config = s.config := rfl

/-! ### `State.setBinding` -/

@[simp] theorem State.setBinding_pending (s : State) (st : StageNo) (b : Option Binding) : (s.setBinding st b).pending = s.pending := rfl
@[simp] theorem State.setBinding_mem (s : State) (st : StageNo) (b : Option Binding) : (s.setBinding st b).mem = s.mem := rfl
@[simp] theorem State.setBinding_clock (s : State) (st : StageNo) (b : Option Binding) : (s.setBinding st b).clock = s.clock := rfl
@[simp] theorem State.setBinding_freeCount (s : State) (st : StageNo) (b : Option Binding) : (s.setBinding st b).freeCount = s.freeCount := rfl
@[simp] theorem State.setBinding_cycle (s : State) (st : StageNo) (b : Option Binding) : (s.setBinding st b).cycle = s.cycle := rfl
@[simp] theorem State.setBinding_hostData (s : State) (st : StageNo) (b : Option Binding) : (s.setBinding st b).hostData = s.hostData := rfl
@[simp] theorem State.setBinding_refusal (s : State) (st : StageNo) (b : Option Binding) : (s.setBinding st b).refusal = s.refusal := rfl
@[simp] theorem State.setBinding_oldRing (s : State) (st : StageNo) (b : Option Binding) : (s.setBinding st b).oldRing = s.oldRing := rfl
@[simp] theorem State.setBinding_port (s : State) (st : StageNo) (b : Option Binding) : (s.setBinding st b).port = s.port := rfl
@[simp] theorem State.setBinding_queue (s : State) (st : StageNo) (b : Option Binding) : (s.setBinding st b).queue = s.queue := rfl
@[simp] theorem State.setBinding_waiting (s : State) (st : StageNo) (b : Option Binding) : (s.setBinding st b).waiting = s.waiting := rfl
@[simp] theorem State.setBinding_drain (s : State) (st : StageNo) (b : Option Binding) : (s.setBinding st b).drain = s.drain := rfl
@[simp] theorem State.setBinding_runCount (s : State) (st : StageNo) (b : Option Binding) : (s.setBinding st b).runCount = s.runCount := rfl
@[simp] theorem State.setBinding_jobs (s : State) (st : StageNo) (b : Option Binding) : (s.setBinding st b).jobs = s.jobs := rfl
@[simp] theorem State.setBinding_binding (s : State) (st : StageNo) (b : Option Binding) : (s.setBinding st b).binding = s.binding.set st b := rfl
@[simp] theorem State.setBinding_lines (s : State) (st : StageNo) (b : Option Binding) : (s.setBinding st b).lines = s.lines := rfl
@[simp] theorem State.setBinding_links (s : State) (st : StageNo) (b : Option Binding) : (s.setBinding st b).links = s.links := rfl
@[simp] theorem State.setBinding_observations (s : State) (st : StageNo) (b : Option Binding) : (s.setBinding st b).observations = s.observations := rfl
@[simp] theorem State.setBinding_alert (s : State) (st : StageNo) (b : Option Binding) : (s.setBinding st b).alert = s.alert := rfl
@[simp] theorem State.setBinding_report (s : State) (st : StageNo) (b : Option Binding) : (s.setBinding st b).report = s.report := rfl
@[simp] theorem State.setBinding_config (s : State) (st : StageNo) (b : Option Binding) : (s.setBinding st b).config = s.config := rfl

/-! ### `State.accept` -/

@[simp] theorem State.accept_pending (s : State) (p : Post) : (s.accept p).pending = s.pending := rfl
@[simp] theorem State.accept_mem (s : State) (p : Post) : (s.accept p).mem = s.mem := rfl
@[simp] theorem State.accept_clock (s : State) (p : Post) : (s.accept p).clock = s.clock := rfl
@[simp] theorem State.accept_freeCount (s : State) (p : Post) : (s.accept p).freeCount = s.freeCount := rfl
@[simp] theorem State.accept_cycle (s : State) (p : Post) : (s.accept p).cycle = s.cycle := rfl
@[simp] theorem State.accept_hostData (s : State) (p : Post) : (s.accept p).hostData = s.hostData := rfl
@[simp] theorem State.accept_refusal (s : State) (p : Post) : (s.accept p).refusal = s.refusal := rfl
@[simp] theorem State.accept_oldRing (s : State) (p : Post) : (s.accept p).oldRing = s.oldRing := rfl
@[simp] theorem State.accept_port (s : State) (p : Post) : (s.accept p).port = s.port := rfl
@[simp] theorem State.accept_queue (s : State) (p : Post) : (s.accept p).queue = joinQueue s.queue p := rfl
@[simp] theorem State.accept_waiting (s : State) (p : Post) : (s.accept p).waiting = s.waiting := rfl
@[simp] theorem State.accept_drain (s : State) (p : Post) : (s.accept p).drain = (s.drain || fillsToDrain s.queue p) := rfl
@[simp] theorem State.accept_runCount (s : State) (p : Post) : (s.accept p).runCount = s.runCount := rfl
@[simp] theorem State.accept_jobs (s : State) (p : Post) : (s.accept p).jobs = s.jobs := rfl
@[simp] theorem State.accept_binding (s : State) (p : Post) : (s.accept p).binding = s.binding := rfl
@[simp] theorem State.accept_lines (s : State) (p : Post) : (s.accept p).lines = s.lines := rfl
@[simp] theorem State.accept_links (s : State) (p : Post) : (s.accept p).links = s.links := rfl
@[simp] theorem State.accept_observations (s : State) (p : Post) : (s.accept p).observations = s.observations := rfl
@[simp] theorem State.accept_alert (s : State) (p : Post) : (s.accept p).alert = s.alert := rfl
@[simp] theorem State.accept_report (s : State) (p : Post) : (s.accept p).report = s.report := rfl
@[simp] theorem State.accept_config (s : State) (p : Post) : (s.accept p).config = s.config := rfl

/-! ### `State.raise` -/

@[simp] theorem State.raise_pending (s : State) (r : Raise) : (s.raise r).pending = s.pending := rfl
@[simp] theorem State.raise_mem (s : State) (r : Raise) : (s.raise r).mem = s.mem := rfl
@[simp] theorem State.raise_clock (s : State) (r : Raise) : (s.raise r).clock = s.clock := rfl
@[simp] theorem State.raise_freeCount (s : State) (r : Raise) : (s.raise r).freeCount = s.freeCount := rfl
@[simp] theorem State.raise_cycle (s : State) (r : Raise) : (s.raise r).cycle = s.cycle := rfl
@[simp] theorem State.raise_hostData (s : State) (r : Raise) : (s.raise r).hostData = s.hostData := rfl
@[simp] theorem State.raise_refusal (s : State) (r : Raise) : (s.raise r).refusal = s.refusal := rfl
@[simp] theorem State.raise_oldRing (s : State) (r : Raise) : (s.raise r).oldRing = s.oldRing := rfl
@[simp] theorem State.raise_port (s : State) (r : Raise) : (s.raise r).port = s.port := rfl
@[simp] theorem State.raise_queue (s : State) (r : Raise) : (s.raise r).queue = s.queue := rfl
@[simp] theorem State.raise_waiting (s : State) (r : Raise) : (s.raise r).waiting = s.waiting := rfl
@[simp] theorem State.raise_drain (s : State) (r : Raise) : (s.raise r).drain = s.drain := rfl
@[simp] theorem State.raise_runCount (s : State) (r : Raise) : (s.raise r).runCount = s.runCount := rfl
@[simp] theorem State.raise_jobs (s : State) (r : Raise) : (s.raise r).jobs = s.jobs := rfl
@[simp] theorem State.raise_binding (s : State) (r : Raise) : (s.raise r).binding = s.binding := rfl
@[simp] theorem State.raise_lines (s : State) (r : Raise) : (s.raise r).lines = s.lines := rfl
@[simp] theorem State.raise_links (s : State) (r : Raise) : (s.raise r).links = s.links := rfl
@[simp] theorem State.raise_observations (s : State) (r : Raise) : (s.raise r).observations = s.observations := rfl
@[simp] theorem State.raise_alert (s : State) (r : Raise) : (s.raise r).alert = { s.alert with raises := s.alert.raises ++ [r] } := rfl
@[simp] theorem State.raise_report (s : State) (r : Raise) : (s.raise r).report = s.report := rfl
@[simp] theorem State.raise_config (s : State) (r : Raise) : (s.raise r).config = s.config := rfl

/-! ### `State.hand` -/

@[simp] theorem State.hand_pending (s : State) (r : Report) : (s.hand r).pending = s.pending := rfl
@[simp] theorem State.hand_mem (s : State) (r : Report) : (s.hand r).mem = s.mem := rfl
@[simp] theorem State.hand_clock (s : State) (r : Report) : (s.hand r).clock = s.clock := rfl
@[simp] theorem State.hand_freeCount (s : State) (r : Report) : (s.hand r).freeCount = s.freeCount := rfl
@[simp] theorem State.hand_cycle (s : State) (r : Report) : (s.hand r).cycle = s.cycle := rfl
@[simp] theorem State.hand_hostData (s : State) (r : Report) : (s.hand r).hostData = s.hostData := rfl
@[simp] theorem State.hand_refusal (s : State) (r : Report) : (s.hand r).refusal = s.refusal := rfl
@[simp] theorem State.hand_oldRing (s : State) (r : Report) : (s.hand r).oldRing = s.oldRing := rfl
@[simp] theorem State.hand_port (s : State) (r : Report) : (s.hand r).port = s.port := rfl
@[simp] theorem State.hand_queue (s : State) (r : Report) : (s.hand r).queue = s.queue := rfl
@[simp] theorem State.hand_waiting (s : State) (r : Report) : (s.hand r).waiting = s.waiting := rfl
@[simp] theorem State.hand_drain (s : State) (r : Report) : (s.hand r).drain = s.drain := rfl
@[simp] theorem State.hand_runCount (s : State) (r : Report) : (s.hand r).runCount = s.runCount := rfl
@[simp] theorem State.hand_jobs (s : State) (r : Report) : (s.hand r).jobs = s.jobs := rfl
@[simp] theorem State.hand_binding (s : State) (r : Report) : (s.hand r).binding = s.binding := rfl
@[simp] theorem State.hand_lines (s : State) (r : Report) : (s.hand r).lines = s.lines := rfl
@[simp] theorem State.hand_links (s : State) (r : Report) : (s.hand r).links = s.links := rfl
@[simp] theorem State.hand_observations (s : State) (r : Report) : (s.hand r).observations = s.observations := rfl
@[simp] theorem State.hand_alert (s : State) (r : Report) : (s.hand r).alert = s.alert := rfl
@[simp] theorem State.hand_report (s : State) (r : Report) : (s.hand r).report = { s.report with handed := s.report.handed ++ [r] } := rfl
@[simp] theorem State.hand_config (s : State) (r : Report) : (s.hand r).config = s.config := rfl

/-! ### `State.useFree` -/

@[simp] theorem State.useFree_pending (s : State) : s.useFree.pending = s.pending := rfl
@[simp] theorem State.useFree_mem (s : State) : s.useFree.mem = s.mem := rfl
@[simp] theorem State.useFree_clock (s : State) : s.useFree.clock = s.clock := rfl
@[simp] theorem State.useFree_freeCount (s : State) : s.useFree.freeCount = s.freeCount + 1 := rfl
@[simp] theorem State.useFree_cycle (s : State) : s.useFree.cycle = s.cycle := rfl
@[simp] theorem State.useFree_hostData (s : State) : s.useFree.hostData = s.hostData := rfl
@[simp] theorem State.useFree_refusal (s : State) : s.useFree.refusal = s.refusal := rfl
@[simp] theorem State.useFree_oldRing (s : State) : s.useFree.oldRing = s.oldRing := rfl
@[simp] theorem State.useFree_port (s : State) : s.useFree.port = s.port := rfl
@[simp] theorem State.useFree_queue (s : State) : s.useFree.queue = s.queue := rfl
@[simp] theorem State.useFree_waiting (s : State) : s.useFree.waiting = s.waiting := rfl
@[simp] theorem State.useFree_drain (s : State) : s.useFree.drain = s.drain := rfl
@[simp] theorem State.useFree_runCount (s : State) : s.useFree.runCount = s.runCount := rfl
@[simp] theorem State.useFree_jobs (s : State) : s.useFree.jobs = s.jobs := rfl
@[simp] theorem State.useFree_binding (s : State) : s.useFree.binding = s.binding := rfl
@[simp] theorem State.useFree_lines (s : State) : s.useFree.lines = s.lines := rfl
@[simp] theorem State.useFree_links (s : State) : s.useFree.links = s.links := rfl
@[simp] theorem State.useFree_observations (s : State) : s.useFree.observations = s.observations := rfl
@[simp] theorem State.useFree_alert (s : State) : s.useFree.alert = s.alert := rfl
@[simp] theorem State.useFree_report (s : State) : s.useFree.report = s.report := rfl
@[simp] theorem State.useFree_config (s : State) : s.useFree.config = s.config := rfl

/-! ### `State.arrive` -/

@[simp] theorem State.arrive_pending (s : State) (n : LineNo) (e : LinkInput) : (s.arrive n e).pending = s.pending := rfl
@[simp] theorem State.arrive_mem (s : State) (n : LineNo) (e : LinkInput) : (s.arrive n e).mem = s.mem := rfl
@[simp] theorem State.arrive_clock (s : State) (n : LineNo) (e : LinkInput) : (s.arrive n e).clock = s.clock := rfl
@[simp] theorem State.arrive_freeCount (s : State) (n : LineNo) (e : LinkInput) : (s.arrive n e).freeCount = s.freeCount := rfl
@[simp] theorem State.arrive_cycle (s : State) (n : LineNo) (e : LinkInput) : (s.arrive n e).cycle = s.cycle := rfl
@[simp] theorem State.arrive_hostData (s : State) (n : LineNo) (e : LinkInput) : (s.arrive n e).hostData = s.hostData := rfl
@[simp] theorem State.arrive_refusal (s : State) (n : LineNo) (e : LinkInput) : (s.arrive n e).refusal = s.refusal := rfl
@[simp] theorem State.arrive_oldRing (s : State) (n : LineNo) (e : LinkInput) : (s.arrive n e).oldRing = s.oldRing := rfl
@[simp] theorem State.arrive_port (s : State) (n : LineNo) (e : LinkInput) : (s.arrive n e).port = s.port := rfl
@[simp] theorem State.arrive_queue (s : State) (n : LineNo) (e : LinkInput) : (s.arrive n e).queue = s.queue := rfl
@[simp] theorem State.arrive_waiting (s : State) (n : LineNo) (e : LinkInput) : (s.arrive n e).waiting = s.waiting := rfl
@[simp] theorem State.arrive_drain (s : State) (n : LineNo) (e : LinkInput) : (s.arrive n e).drain = s.drain := rfl
@[simp] theorem State.arrive_runCount (s : State) (n : LineNo) (e : LinkInput) : (s.arrive n e).runCount = s.runCount := rfl
@[simp] theorem State.arrive_jobs (s : State) (n : LineNo) (e : LinkInput) : (s.arrive n e).jobs = s.jobs := rfl
@[simp] theorem State.arrive_binding (s : State) (n : LineNo) (e : LinkInput) : (s.arrive n e).binding = s.binding := rfl
@[simp] theorem State.arrive_lines (s : State) (n : LineNo) (e : LinkInput) : (s.arrive n e).lines = s.lines := rfl
@[simp] theorem State.arrive_links (s : State) (n : LineNo) (e : LinkInput) : (s.arrive n e).links = s.links.set n { s.link n with arrivals := (s.link n).arrivals ++ [⟨e, false⟩] } := rfl
@[simp] theorem State.arrive_observations (s : State) (n : LineNo) (e : LinkInput) : (s.arrive n e).observations = s.observations := rfl
@[simp] theorem State.arrive_alert (s : State) (n : LineNo) (e : LinkInput) : (s.arrive n e).alert = s.alert := rfl
@[simp] theorem State.arrive_report (s : State) (n : LineNo) (e : LinkInput) : (s.arrive n e).report = s.report := rfl
@[simp] theorem State.arrive_config (s : State) (n : LineNo) (e : LinkInput) : (s.arrive n e).config = s.config := rfl

/-! ### Reading back -/

@[simp] theorem State.line_setLine_same (s : State) (n : LineNo) (l : Line) : (s.setLine n l).line n = l := by
  simp [State.line, State.setLine]

theorem State.line_setLine_other (s : State) {n m : LineNo} (l : Line) (h : m ≠ n) :
    (s.setLine n l).line m = s.line m := by
  have h' : (n : Nat) ≠ m := fun e => h (Fin.ext e.symm)
  simp [State.line, State.setLine, h']

@[simp] theorem State.link_setLink_same (s : State) (n : LineNo) (k : Link) : (s.setLink n k).link n = k := by
  simp [State.link, State.setLink]

theorem State.link_setLink_other (s : State) {n m : LineNo} (k : Link) (h : m ≠ n) :
    (s.setLink n k).link m = s.link m := by
  have h' : (n : Nat) ≠ m := fun e => h (Fin.ext e.symm)
  simp [State.link, State.setLink, h']

@[simp] theorem State.bindingOf_setBinding_same (s : State) (st : StageNo) (b : Option Binding) :
    (s.setBinding st b).bindingOf st = b := by
  simp [State.bindingOf, State.setBinding]

theorem State.bindingOf_setBinding_other (s : State) {st st' : StageNo} (b : Option Binding) (h : st' ≠ st) :
    (s.setBinding st b).bindingOf st' = s.bindingOf st' := by
  have h' : (st : Nat) ≠ st' := fun e => h (Fin.ext e.symm)
  simp [State.bindingOf, State.setBinding, h']

@[simp] theorem State.link_setLine (s : State) (n m : LineNo) (l : Line) : (s.setLine n l).link m = s.link m := rfl
@[simp] theorem State.line_setLink (s : State) (n m : LineNo) (k : Link) : (s.setLink n k).line m = s.line m := rfl
@[simp] theorem State.line_accept (s : State) (p : Post) (m : LineNo) : (s.accept p).line m = s.line m := rfl
@[simp] theorem State.link_accept (s : State) (p : Post) (m : LineNo) : (s.accept p).link m = s.link m := rfl
@[simp] theorem State.line_hand (s : State) (r : Report) (m : LineNo) : (s.hand r).line m = s.line m := rfl
@[simp] theorem State.link_hand (s : State) (r : Report) (m : LineNo) : (s.hand r).link m = s.link m := rfl
@[simp] theorem State.line_arrive (s : State) (n m : LineNo) (e : LinkInput) : (s.arrive n e).line m = s.line m := rfl
@[simp] theorem State.line_raise (s : State) (r : Raise) (m : LineNo) : (s.raise r).line m = s.line m := rfl
@[simp] theorem State.link_raise (s : State) (r : Raise) (m : LineNo) : (s.raise r).link m = s.link m := rfl

end Sys2Proof.Machine
end

