-- ==== Sys2Proof/Laws/Operations.lean ====
section
/-! SUPPORT. What an operation can do: with room for its posts it does its acts in order (`runActs_of_room`, and
`runActs_of_addresses` where addresses repeat), it keeps whatever each act keeps (`runActs_keeps`), and it touches neither
memory nor configuration nor any of the fields that `Quiet` names. -/

namespace Sys2Proof.Machine

/-! ### Running acts -/

/-- The act is a post. -/
def Act.isPost : Act → Bool
  | .post _ => true
  | _ => false

/-- The number of posts among acts. -/
def postCount (acts : List Act) : Nat := (acts.filter Act.isPost).length

/-- A queue with an entry free takes any post. -/
theorem State.takesPost_of_room (s : State) (p : Post) (h : s.queue.length < Config.queueCapacity) :
    s.takesPost p = true := by
  simp [State.takesPost, h]

theorem State.perform_post (s : State) (p : Post) : s.perform (.post p) = s.accept p := rfl

theorem State.recordWritten_queue (s : State) : s.recordWritten.queue = s.queue := by
  unfold State.recordWritten
  cases s.report.ring with
  | none => rfl
  | some r =>
    dsimp only
    split <;> rfl

theorem State.sendCommand_queue (s : State) (n : LineNo) (k : CommandKind) : (s.sendCommand n k).queue = s.queue := by
  cases k with
  | setpoint => rfl
  | stop => rfl
  | mix =>
    simp only [State.sendCommand]
    cases (s.line n).copy <;> rfl

/-- Only a post changes the insert queue. -/
theorem State.perform_queue (s : State) (a : Act) (h : a.isPost = false) : (s.perform a).queue = s.queue := by
  cases a with
  | post p => simp [Act.isPost] at h
  | answer v r st =>
    simp only [State.perform]
    cases s.cycle <;> first | rfl | (cases r <;> rfl)
  | ask => simp only [State.perform]; cases s.cycle <;> rfl
  | recordPosted => simp only [State.perform]; cases s.cycle <;> rfl
  | recordWritten => exact s.recordWritten_queue
  | enterStop n => exact s.sendCommand_queue n .stop
  | hand r => rfl
  | request n k => rfl
  | requestCeiling n => simp only [State.perform, State.requestCeiling]; split <;> rfl
  | restartRamp n => rfl
  | stop n => rfl
  | restart n => rfl
  | rearm n => rfl
  | observe o => rfl
  | plantStop c => rfl
  | tell n e => rfl
  | loadNotice => rfl
  | loadEnded p => rfl
  | notifyLinks => rfl
  | setProducer v => rfl
  | placed => rfl

theorem State.runActs_nil (b : Block) (c : Option Cont) (s : State) : State.runActs b c [] s = (s, true) := rfl

theorem State.runActs_post (b : Block) (c : Option Cont) (p : Post) (rest : List Act) (s : State) :
    State.runActs b c (.post p :: rest) s =
      if s.takesPost p then State.runActs b c rest (s.accept p)
      else ({ s with waiting := s.waiting ++ [⟨b, p, rest, c⟩] }, false) := rfl

theorem State.runActs_other (b : Block) (c : Option Cont) (a : Act) (rest : List Act) (s : State)
    (h : a.isPost = false) : State.runActs b c (a :: rest) s = State.runActs b c rest (s.perform a) := by
  cases a <;> first | rfl | simp [Act.isPost] at h

/-- An operation whose posts all find room does its acts in order and ends. -/
theorem State.runActs_of_room (b : Block) (c : Option Cont) (acts : List Act) (s : State)
    (h : s.room (postCount acts)) : State.runActs b c acts s = (acts.foldl State.perform s, true) := by
  induction acts generalizing s with
  | nil => rfl
  | cons a rest ih =>
    cases hp : a.isPost with
    | true =>
      obtain ⟨p, rfl⟩ : ∃ p, a = .post p := by
        cases a <;> simp_all [Act.isPost]
      have hc : postCount (.post p :: rest) = postCount rest + 1 := by
        simp [postCount, List.filter_cons_of_pos hp]
      rw [hc] at h
      simp only [State.room] at h
      rw [State.runActs_post, if_pos (s.takesPost_of_room p (by omega))]
      have hl := joinQueue_length_le s.queue p
      rw [ih (s.accept p) (by simp only [State.room, State.accept_queue]; omega)]
      rfl
    | false =>
      have hc : postCount (a :: rest) = postCount rest := by simp [postCount, hp]
      rw [hc] at h
      rw [State.runActs_other b c a rest s hp, ih _ (by simpa only [State.room, s.perform_queue a hp] using h)]
      rfl

/-- The entries and the addresses still to join stay within the capacity. -/
theorem fits_accept (A : List Addr) (s : State) (p : Post) (hp : p.addr ∈ A)
    (h : s.queue.length + (A.filter fun a => !queued s.queue a).length ≤ Config.queueCapacity) :
    s.takesPost p = true ∧
      (s.accept p).queue.length + (A.filter fun a => !queued (s.accept p).queue a).length ≤
        Config.queueCapacity := by
  have hff : (A.filter fun a => !queued (s.accept p).queue a) =
      (A.filter fun a => !queued s.queue a).filter fun a => !(p.addr == a) := by
    rw [List.filter_filter]
    exact List.filter_congr fun a _ => by
      rw [State.accept_queue, queued_joinQueue, Bool.not_or, Bool.and_comm]
  rw [hff]
  cases hqp : queued s.queue p.addr with
  | true =>
    have hl := joinQueue_length_queued _ _ hqp
    have hf := List.length_filter_le (fun a => !(p.addr == a)) (A.filter fun a => !queued s.queue a)
    simp only [State.accept_queue]
    exact ⟨by simp [State.takesPost, hqp], by omega⟩
  | false =>
    have hl := joinQueue_length_le s.queue p
    have hf : ((A.filter fun a => !queued s.queue a).filter fun a => !(p.addr == a)).length <
        (A.filter fun a => !queued s.queue a).length := by
      rw [List.length_filter_lt_length_iff_exists]
      exact ⟨p.addr, by simp [hp, hqp], by simp⟩
    simp only [State.accept_queue]
    exact ⟨s.takesPost_of_room p (by omega), by omega⟩

/-- An operation whose posts are at few addresses does its acts in order and ends: an address posted twice needs one
place. -/
theorem State.runActs_of_addresses (b : Block) (c : Option Cont) (A : List Addr) (acts : List Act) (s : State)
    (hA : ∀ p, Act.post p ∈ acts → p.addr ∈ A)
    (h : s.queue.length + (A.filter fun a => !queued s.queue a).length ≤ Config.queueCapacity) :
    State.runActs b c acts s = (acts.foldl State.perform s, true) ∧
      (acts.foldl State.perform s).queue.length +
          (A.filter fun a => !queued (acts.foldl State.perform s).queue a).length ≤ Config.queueCapacity := by
  induction acts generalizing s with
  | nil => exact ⟨rfl, h⟩
  | cons a rest ih =>
    have hrest : ∀ p, Act.post p ∈ rest → p.addr ∈ A := fun p hp => hA p (List.mem_cons_of_mem _ hp)
    cases hp : a.isPost with
    | true =>
      obtain ⟨p, rfl⟩ : ∃ p, a = .post p := by
        cases a <;> simp_all [Act.isPost]
      obtain ⟨ht, hf⟩ := fits_accept A s p (hA p List.mem_cons_self) h
      rw [State.runActs_post, if_pos ht]
      exact ih (s.accept p) hrest hf
    | false =>
      rw [State.runActs_other b c a rest s hp]
      exact ih _ hrest (by simpa only [s.perform_queue a hp] using h)

/-- Room for as many posts as there are addresses is enough. -/
theorem State.fits_of_room (A : List Addr) (s : State) (h : s.room A.length) :
    s.queue.length + (A.filter fun a => !queued s.queue a).length ≤ Config.queueCapacity := by
  have := List.length_filter_le (fun a => !queued s.queue a) A
  simp only [State.room] at h
  omega

/-- What is left of an operation, where no post is among it, is done whatever the queue holds. -/
theorem State.operate_of_noPosts (b : Block) (acts : List Act) (s : State) (h : ∀ p, Act.post p ∉ acts) :
    s.operate b acts none = acts.foldl State.perform s := by
  have hrun : State.runActs b none acts s = (acts.foldl State.perform s, true) := by
    induction acts generalizing s with
    | nil => rfl
    | cons a rest ih =>
      have ha : a.isPost = false := by
        cases a <;> first | rfl | exact absurd List.mem_cons_self (h _)
      rw [State.runActs_other _ _ _ _ _ ha, ih _ fun p hp => h p (List.mem_cons_of_mem _ hp)]
      rfl
  simp [State.operate, hrun]

/-- One drain accepts the waiting posts whose addresses are queued, and the oldest of the others or all (R26, log 31). -/
theorem State.acceptWaiting_several (first last rest : List WaitingPost) (s : State) (hl : s.queue.length = 15)
    (hn : (s.queue.map Post.addr).Nodup) (hf : ∀ w ∈ first, queued s.queue w.post.addr = true)
    (hlast : last = [] ∧ rest = [] ∨ ∃ w, last = [w] ∧ queued s.queue w.post.addr = false) :
    State.acceptWaiting (first ++ last ++ rest) s =
      ({ s with queue := (s.postAll ((first ++ last).map WaitingPost.post)).queue, waiting := rest },
        first ++ last) := by
  induction first generalizing s with
  | nil =>
    rcases hlast with ⟨rfl, rfl⟩ | ⟨w, rfl, hw⟩
    · simp [State.acceptWaiting, State.postAll]
    · simp [State.acceptWaiting, hw, hl, Config.queueCapacity, State.postAll, State.accept, fillsToDrain,
        Config.drainOnAt]
  | cons f fs ih =>
    have hq := hf f List.mem_cons_self
    have step := ih (s.accept f.post)
      (by rw [State.accept_queue, joinQueue_length_eq s.queue f.post hn hq, hl])
      (by rw [State.accept_queue]; exact joinQueue_nodup _ _ hn)
      (fun w hw => by
        rw [State.accept_queue, queued_joinQueue, hf w (List.mem_cons_of_mem _ hw)]
        rfl)
      (hlast.imp_right fun ⟨w, hw, hw'⟩ => ⟨w, hw, by
        rw [State.accept_queue, queued_joinQueue, hw']
        simp only [Bool.false_or, beq_eq_false_iff_ne]
        intro he
        rw [he, hw'] at hq
        cases hq⟩)
    simp only [List.cons_append, State.acceptWaiting, hq, if_true]
    rw [step]
    simp [State.postAll, State.accept, fillsToDrain, hq]

/-- Whatever every act keeps, and the waiting of a post, is kept by an operation. -/
theorem State.runActs_keeps (P : State → Prop) (b : Block) (c : Option Cont) (acts : List Act) (s : State)
    (hpost : ∀ t p, P t → t.takesPost p = true → Act.post p ∈ acts → P (t.accept p))
    (hact : ∀ t a, P t → a ∈ acts → a.isPost = false → P (t.perform a))
    (hwait : ∀ t p rest, P t → Act.post p :: rest <:+ acts → P { t with waiting := t.waiting ++ [⟨b, p, rest, c⟩] })
    (h : P s) : P (State.runActs b c acts s).1 := by
  induction acts generalizing s with
  | nil => exact h
  | cons a rest ih =>
    have hrest : ∀ t, P t → P (State.runActs b c rest t).1 := fun t ht =>
      ih t (fun t p h1 h2 h3 => hpost t p h1 h2 (List.mem_cons_of_mem _ h3))
        (fun t a' h1 h2 h3 => hact t a' h1 (List.mem_cons_of_mem _ h2) h3)
        (fun t p r h1 h2 => hwait t p r h1 (h2.trans (List.suffix_cons _ _))) ht
    cases hp : a.isPost with
    | true =>
      obtain ⟨p, rfl⟩ : ∃ p, a = .post p := by
        cases a <;> simp_all [Act.isPost]
      rw [State.runActs_post]
      by_cases ht : s.takesPost p = true
      · rw [if_pos ht]
        exact hrest _ (hpost s p h ht List.mem_cons_self)
      · rw [if_neg ht]
        exact hwait s p rest h (List.suffix_refl _)
    | false =>
      rw [State.runActs_other b c a rest s hp]
      exact hrest _ (hact s a h List.mem_cons_self hp)

/-! ### What no operation touches -/

/-- The fields that no operation of a block touches: the commands, the RAM, the count of milliseconds, the host's data,
the old ring, the port and its run count, the reader's jobs, the Binding Table, the configuration, and at the Alert
Controller all but the raises and notices sent to it. -/
structure Quiet (s t : State) : Prop where
  pending : t.pending = s.pending
  mem : t.mem = s.mem
  clock : t.clock = s.clock
  hostData : t.hostData = s.hostData
  oldRing : t.oldRing = s.oldRing
  port : t.port = s.port
  runCount : t.runCount = s.runCount
  jobs : t.jobs = s.jobs
  binding : t.binding = s.binding
  config : t.config = s.config
  classes : t.alert.pending = s.alert.pending
  alert : t.alert.alert = s.alert.alert
  ackTimer : t.alert.ackTimer = s.alert.ackTimer
  plantStop : t.alert.plantStop = s.alert.plantStop
  assertedAt : t.alert.assertedAt = s.alert.assertedAt

theorem Quiet.rfl' (s : State) : Quiet s s := by constructor <;> rfl

theorem Quiet.trans {s t u : State} (h : Quiet s t) (g : Quiet t u) : Quiet s u where
  pending := g.pending.trans h.pending
  mem := g.mem.trans h.mem
  clock := g.clock.trans h.clock
  hostData := g.hostData.trans h.hostData
  oldRing := g.oldRing.trans h.oldRing
  port := g.port.trans h.port
  runCount := g.runCount.trans h.runCount
  jobs := g.jobs.trans h.jobs
  binding := g.binding.trans h.binding
  config := g.config.trans h.config
  classes := g.classes.trans h.classes
  alert := g.alert.trans h.alert
  ackTimer := g.ackTimer.trans h.ackTimer
  plantStop := g.plantStop.trans h.plantStop
  assertedAt := g.assertedAt.trans h.assertedAt

theorem State.sendCommand_quiet (s : State) (n : LineNo) (k : CommandKind) : Quiet s (s.sendCommand n k) := by
  cases k with
  | setpoint => constructor <;> rfl
  | stop => constructor <;> rfl
  | mix =>
    simp only [State.sendCommand]
    cases (s.line n).copy <;> constructor <;> rfl

theorem State.recordWritten_quiet (s : State) : Quiet s s.recordWritten := by
  unfold State.recordWritten
  cases s.report.ring with
  | none => constructor <;> rfl
  | some r =>
    dsimp only
    split <;> constructor <;> rfl

theorem State.perform_quiet (s : State) (a : Act) : Quiet s (s.perform a) := by
  cases a with
  | answer v r st =>
    simp only [State.perform]
    cases s.cycle <;> first | exact Quiet.rfl' s | (cases r <;> constructor <;> rfl)
  | ask => simp only [State.perform]; cases s.cycle <;> constructor <;> rfl
  | recordPosted => simp only [State.perform]; cases s.cycle <;> constructor <;> rfl
  | recordWritten => exact s.recordWritten_quiet
  | enterStop n => exact s.sendCommand_quiet n .stop
  | post p => constructor <;> rfl
  | hand r => constructor <;> rfl
  | request n k => constructor <;> rfl
  | requestCeiling n => simp only [State.perform, State.requestCeiling]; split <;> constructor <;> rfl
  | restartRamp n => constructor <;> rfl
  | stop n => constructor <;> rfl
  | restart n => constructor <;> rfl
  | rearm n => constructor <;> rfl
  | observe o => constructor <;> rfl
  | plantStop c => constructor <;> rfl
  | tell n e => constructor <;> rfl
  | loadNotice => constructor <;> rfl
  | loadEnded p => constructor <;> rfl
  | notifyLinks => constructor <;> rfl
  | setProducer v => constructor <;> rfl
  | placed => constructor <;> rfl

theorem State.runActs_quiet (b : Block) (c : Option Cont) (acts : List Act) (s : State) :
    Quiet s (State.runActs b c acts s).1 := by
  refine State.runActs_keeps (fun t => Quiet s t) b c acts s ?_ ?_ ?_ (Quiet.rfl' s)
  · intro t p h _ _
    exact h.trans (by constructor <;> rfl)
  · intro t a h _ _
    exact h.trans (t.perform_quiet a)
  · intro t p rest h _
    exact h.trans (by constructor <;> rfl)

theorem State.setLine_quiet (s : State) (n : LineNo) (l : Line) : Quiet s (s.setLine n l) := by constructor <;> rfl

theorem State.setLink_quiet (s : State) (n : LineNo) (k : Link) : Quiet s (s.setLink n k) := by constructor <;> rfl

theorem State.takeStop_quiet (s : State) (n : LineNo) : Quiet s (s.takeStop n).1 := by
  unfold State.takeStop
  dsimp only
  split <;> constructor <;> rfl

theorem State.takePending_quiet (s : State) (n : LineNo) : Quiet s (s.takePending n).1 := by
  unfold State.takePending
  dsimp only
  split
  · exact Quiet.rfl' s
  · split
    · exact (s.setLink_quiet n _).trans (State.sendCommand_quiet _ n _)
    · exact Quiet.rfl' s

theorem State.takeNext_quiet (s : State) (n : LineNo) : Quiet s (s.takeNext n).1 := by
  unfold State.takeNext
  dsimp only
  split
  · exact Quiet.rfl' s
  · split
    · exact s.takeStop_quiet n
    · split
      · exact s.takePending_quiet n
      · split
        · constructor <;> rfl
        · exact Quiet.rfl' s

theorem State.startCont_quiet (s : State) (c : Cont) : Quiet s (s.startCont c).1 := by
  cases c with
  | sampleChecks n x => exact s.setLine_quiet n _
  | takeNext n => exact s.takeNext_quiet n
  | takePending n => exact s.takePending_quiet n

theorem State.operate_quiet (s : State) (b : Block) (acts : List Act) (c : Option Cont) :
    Quiet s (s.operate b acts c) := by
  have h := State.runActs_quiet b c acts s
  unfold State.operate
  split
  · next t heq => simpa [heq] using h
  · next t heq =>
    rw [heq] at h
    cases c with
    | none => exact h
    | some k => exact h.trans ((t.startCont_quiet k).trans (State.runActs_quiet _ _ _ _))

theorem State.react_quiet (s : State) : Quiet s s.react := by
  unfold State.react
  split
  · refine Quiet.trans ?_ (State.operate_quiet _ _ _ _)
    constructor <;> rfl
  · exact Quiet.rfl' s

theorem State.imageNotice_quiet (s : State) (n : LineNo) : Quiet s (s.imageNotice n).1 := by
  unfold State.imageNotice
  dsimp only
  split
  · split
    · exact s.setLink_quiet n _
    · split
      · exact s.setLink_quiet n _
      · exact Quiet.rfl' s
  · split
    · exact Quiet.rfl' s
    · exact s.setLink_quiet n _

theorem State.takeOwn_quiet (s : State) (n : LineNo) (e : LinkInput) : Quiet s (s.takeOwn n e).1 := by
  cases e <;> first | exact Quiet.rfl' s | exact s.takeNext_quiet n | exact s.imageNotice_quiet n

theorem State.flushLink_quiet (n : LineNo) (count : Nat) (s : State) : Quiet s (State.flushLink n count s) := by
  induction count generalizing s with
  | zero => exact Quiet.rfl' s
  | succ k ih =>
    unfold State.flushLink
    split
    · exact Quiet.rfl' s
    · split
      · exact Quiet.rfl' s
      · exact (s.setLink_quiet n _).trans ((State.takeOwn_quiet _ n _).trans ((State.operate_quiet _ _ _ _).trans (ih _)))

theorem State.flush_quiet (s : State) (n : LineNo) : Quiet s (s.flush n) := State.flushLink_quiet n _ s

theorem State.flushAll_quiet (s : State) : Quiet s s.flushAll := by
  unfold State.flushAll
  exact (((((((s.flush_quiet 0).trans (State.flush_quiet _ 1)).trans (State.flush_quiet _ 2)).trans
    (State.flush_quiet _ 3)).trans (State.flush_quiet _ 4)).trans (State.flush_quiet _ 5)).trans
    (State.flush_quiet _ 6)).trans (State.flush_quiet _ 7)

theorem State.afterOperation_quiet (s : State) (b : Block) : Quiet s (s.afterOperation b) := by
  cases b with
  | passThrough => exact Quiet.rfl' s
  | line n => exact s.react_quiet
  | link n => exact s.flush_quiet n
  | alert => exact Quiet.rfl' s
  | config => exact s.flushAll_quiet
  | report => exact Quiet.rfl' s

theorem State.operation_quiet (s : State) (b : Block) (acts : List Act) (c : Option Cont) :
    Quiet s (s.operation b acts c) :=
  (s.operate_quiet b acts c).trans (State.afterOperation_quiet _ b)

theorem State.refuseOutright_quiet (s : State) (w : HostWrite) (r : RefuseReason) (st : Byte) :
    Quiet s (s.refuseOutright w r st) := by
  unfold State.refuseOutright
  refine Quiet.trans ?_ (State.operate_quiet _ _ _ _)
  constructor <;> rfl

/-! ### The next event of a controller (R152) -/

theorem extractFirst_none {α : Type} (p : α → Bool) (l : List α) (h : ∀ x ∈ l, p x = false) :
    extractFirst p l = none := by
  induction l with
  | nil => rfl
  | cons x rest ih =>
    simp only [List.mem_cons, forall_eq_or_imp] at h
    simp [extractFirst, h.1, ih h.2]

/-- The first element that passes is extracted from behind those that do not. -/
theorem extractFirst_append {α : Type} (p : α → Bool) (before rest : List α) (x : α) (hx : p x = true)
    (h : ∀ y ∈ before, p y = false) : extractFirst p (before ++ x :: rest) = some (x, before ++ rest) := by
  induction before with
  | nil => simp [extractFirst, hx]
  | cons y ys ih =>
    simp only [List.mem_cons, forall_eq_or_imp] at h
    simp [extractFirst, h.1, ih h.2]

/-- An event that waited behind a post is the only one that may be taken. -/
theorem Link.nextInput_waited (k : Link) (a : LinkArrival) (rest : List LinkArrival) (src : InputSource)
    (h : k.arrivals = a :: rest) (hw : a.waited = true) :
    k.nextInput src = if a.input.source = src then some (a.input, rest) else none := by
  simp [Link.nextInput, h, hw]

/-- Where none waited, the oldest of the source may be taken. -/
theorem Link.nextInput_of_source (k : Link) (src : InputSource) (before after : List LinkArrival) (a : LinkArrival)
    (hw : ∀ b ∈ k.arrivals.head?, b.waited = false) (h : k.arrivals = before ++ a :: after)
    (hb : ∀ b ∈ before, b.input.source ≠ src) (ha : a.input.source = src) :
    k.nextInput src = some (a.input, before ++ after) := by
  have hx := extractFirst_append (fun e : LinkArrival => e.input.source == src) before after a (by simpa using ha)
    (by simpa using hb)
  unfold Link.nextInput
  rw [← h] at hx
  cases hk : k.arrivals with
  | nil => simp [hk] at h
  | cons b rest =>
    have hb' := hw b (by simp [hk])
    rw [hk] at hx
    simp [hb', hx]

/-- A source that sent nothing has no next event. -/
theorem Link.nextInput_none (k : Link) (src : InputSource) (h : ∀ a ∈ k.arrivals, a.input.source ≠ src) :
    k.nextInput src = none := by
  unfold Link.nextInput
  have hx := extractFirst_none (fun e : LinkArrival => e.input.source == src) k.arrivals (by simpa using h)
  cases hk : k.arrivals with
  | nil => rfl
  | cons a rest =>
    have ha : a.input.source ≠ src := h a (by simp [hk])
    rw [hk] at hx
    simp [ha, hx]

theorem Link.nextInput_own_none (k : Link) (h : ∀ a ∈ k.arrivals, a.input.source ≠ .own) :
    k.nextInput .own = none := k.nextInput_none .own h

/-- A controller with none of its own events waiting has nothing to flush. -/
theorem State.flush_of_noOwn (s : State) (n : LineNo) (h : s.noOwn n) : s.flush n = s := by
  unfold State.flush
  generalize (s.link n).arrivals.length = k
  cases k with
  | zero => rfl
  | succ k =>
    unfold State.flushLink
    rw [Link.nextInput_own_none _ h]
    simp

end Sys2Proof.Machine
end

