-- ==== Sys2Proof/Laws/Commands.lean ====
section
/-! SUPPORT. What the shared steps of a command can do: presenting a write, withdrawing a copy job, the reads of the table
reader, and RELEASE_STOP's test for TRIP. -/

namespace Sys2Proof.Machine

/-! ### Presenting a write to a watched word (R1) -/

/-- On an idle bus an owner that can take the write takes it. -/
theorem State.present_idle (s : State) (w : HostWrite) (take : State → State) (h : s.cycle = .idle) :
    s.present w false take = take { s with cycle := .taken w } := by
  simp [State.present, h]

/-- On an idle bus an owner that cannot take the write yet has it held. -/
theorem State.present_waits (s : State) (w : HostWrite) (take : State → State) (h : s.cycle = .idle) :
    s.present w true take = { s with cycle := .held w } := by
  simp [State.present, h]

/-- A held write stays held while its owner cannot take it. -/
theorem State.present_held (s : State) (w : HostWrite) (take : State → State) (h : s.cycle = .held w) :
    s.present w true take = s := by
  simp [State.present, h]

/-- A held write is taken when its owner can. -/
theorem State.present_held_taken (s : State) (w : HostWrite) (take : State → State) (h : s.cycle = .held w) :
    s.present w false take = take { s with cycle := .taken w } := by
  simp [State.present, h]

/-! ### The table reader (R31, R33) -/

/-- A withdrawal changes the port grant and the reader's list alone. -/
theorem State.withdraw_eq (s : State) (n : LineNo) :
    s.withdraw n = { s with port := (s.withdraw n).port, jobs := (s.withdraw n).jobs } := by
  unfold State.withdraw
  split
  · split <;> rfl
  · rfl

/-- With no read under way a withdrawal removes the line's jobs. -/
theorem State.withdraw_free (s : State) (n : LineNo) (h : s.port = .free) :
    s.withdraw n = { s with jobs := withoutCopy s.jobs n } := by
  simp [State.withdraw, h]

/-- A read of the line's own copy under way stays, its word withdrawn. -/
theorem State.withdraw_reading (s : State) (n : LineNo) (v : Word) (gone : Bool) (j : Job) (rest : List Job)
    (hp : s.port = .reading v gone) (hj : s.jobs = j :: rest) (hn : j.copies n = true) :
    s.withdraw n = { s with port := .reading v true, jobs := j :: withoutCopy rest n } := by
  simp [State.withdraw, hp, hj, hn]

/-- The read of a withdrawn job ends with nothing delivered. -/
theorem State.endRead_withdrawn (s : State) (v : Word) :
    s.endRead v true = { s with port := .free, jobs := s.jobs.tail } := rfl

/-- A whole read is its grant and its end. -/
theorem State.endRead_beginRead (s : State) (v : Word) :
    (s.beginRead v).endRead v false = State.deliverWord { s with port := .free, runCount := 0 } v := rfl

/-! ### RELEASE_STOP (R161) -/

/-- A TRIP report of a line is on its way where one is still to be handed over, waits to be taken, or its raise waits. -/
theorem State.tripOnItsWay_iff (s : State) : s.tripOnItsWay = true ↔ tripComes s := by
  unfold State.tripOnItsWay tripComes
  simp only [Bool.or_eq_true, List.any_eq_true, beq_iff_eq, or_assoc]
  refine or_congr Iff.rfl (or_congr Iff.rfl ?_)
  refine exists_congr fun w => and_congr Iff.rfl ⟨?_, ?_⟩
  · rintro ⟨a, h, ha⟩
    cases a with
    | hand r => exact ⟨r, h, by simpa [Act.handsTrip] using ha⟩
    | _ => cases ha
  · rintro ⟨r, h, hr⟩
    exact ⟨.hand r, h, by simpa [Act.handsTrip] using hr⟩

end Sys2Proof.Machine
end

