-- ==== Sys2Proof/Laws/Keeping.lean ====
section
/-! SUPPORT. The shared operations with room for their posts, and what every operation keeps: a property that each act,
each waiting and each continuation keeps (`Kept`) is kept by operations, by what follows them and by resumptions. -/

namespace Sys2Proof.Machine

/-! ### Operations with room -/

/-- An operation with room for its posts does its acts in order. -/
theorem State.operate_of_room (s : State) (b : Block) (acts : List Act) (h : s.room (postCount acts)) :
    s.operate b acts none = acts.foldl State.perform s := by
  unfold State.operate
  rw [State.runActs_of_room b none acts s h]

/-- An operation with no posts does its acts in order. -/
theorem State.operate_without_posts (s : State) (b : Block) (acts : List Act) (h : ∀ a ∈ acts, a.isPost = false) :
    s.operate b acts none = acts.foldl State.perform s := by
  have hx : ∀ (l : List Act) (t : State), (∀ a ∈ l, a.isPost = false) →
      State.runActs b none l t = (l.foldl State.perform t, true) := by
    intro l
    induction l with
    | nil => intro t _; rfl
    | cons a rest ih =>
      intro t hl
      rw [State.runActs_other b none a rest t (hl a List.mem_cons_self),
        ih _ (fun a' ha => hl a' (List.mem_cons_of_mem _ ha))]
      rfl
  unfold State.operate
  rw [hx acts s h]

/-- Posts accepted one after another are acts done one after another. -/
theorem State.postAll_eq_perform (s : State) (ps : List Post) :
    s.postAll ps = (ps.map Act.post).foldl State.perform s := by
  unfold State.postAll
  induction ps generalizing s with
  | nil => rfl
  | cons p rest ih => exact ih (s.accept p)

/-- A controller whose turn it is takes its event, and its operation runs. -/
theorem State.takeInput_of_turn (s : State) (n : LineNo) (e : LinkInput) (rest : List LinkArrival)
    (take : State → State × List Act × Option Cont) (h : linkTurn s n e rest) :
    s.takeInput n e.source take =
      (take (s.setLink n { s.link n with arrivals := rest })).1.operation (.link n)
        (take (s.setLink n { s.link n with arrivals := rest })).2.1
        (take (s.setLink n { s.link n with arrivals := rest })).2.2 := by
  obtain ⟨h1, h2, -⟩ := h
  simp [State.takeInput, h1, h2]

/-- An operation of a controller that leaves it no event of its own is over when its acts are done. -/
theorem State.operation_link_of_noOwn (s : State) (n : LineNo) (acts : List Act) (c : Option Cont)
    (h : (s.operate (.link n) acts c).noOwn n) : s.operation (.link n) acts c = s.operate (.link n) acts c :=
  State.flush_of_noOwn _ n h

/-! ### What every operation keeps -/

/-- What the parts of an operation keep. -/
structure Kept (P : State → Prop) : Prop where
  accept : ∀ (t : State) (p : Post), P t → t.takesPost p = true → P (t.accept p)
  act : ∀ (t : State) (a : Act), P t → a.isPost = false → P (t.perform a)
  wait : ∀ (t : State) (ws : List WaitingPost), P t → P { t with waiting := ws }
  cont : ∀ (t : State) (c : Cont), P t → P (t.startCont c).1
  own : ∀ (t : State) (n : LineNo) (e : LinkInput), P t → P (t.takeOwn n e).1
  arrivals : ∀ (t : State) (n : LineNo) (l : List LinkArrival), P t → P (t.setLink n { t.link n with arrivals := l })
  cycle : ∀ (t : State) (c : HostCycle) (r : RefusalRecord), P t → P { t with cycle := c, refusal := r }

theorem Kept.runActs {P : State → Prop} (k : Kept P) (b : Block) (c : Option Cont) (acts : List Act) (s : State)
    (h : P s) : P (State.runActs b c acts s).1 :=
  State.runActs_keeps P b c acts s (fun t p h1 h2 _ => k.accept t p h1 h2) (fun t a h1 _ h3 => k.act t a h1 h3)
    (fun t _ _ h1 _ => k.wait t _ h1) h

theorem Kept.operate {P : State → Prop} (k : Kept P) (b : Block) (acts : List Act) (c : Option Cont) (s : State)
    (h : P s) : P (s.operate b acts c) := by
  have h1 := k.runActs b c acts s h
  unfold State.operate
  split
  · next t heq => simpa [heq] using h1
  · next t heq =>
    rw [heq] at h1
    cases c with
    | none => exact h1
    | some c => exact k.runActs _ _ _ _ (k.cont t c h1)

theorem Kept.react {P : State → Prop} (k : Kept P) (s : State) (h : P s) : P s.react := by
  unfold State.react
  split
  · exact k.operate _ _ _ _ (k.cycle s _ _ h)
  · exact h

theorem Kept.flushLink {P : State → Prop} (k : Kept P) (n : LineNo) (count : Nat) (s : State) (h : P s) :
    P (State.flushLink n count s) := by
  induction count generalizing s with
  | zero => exact h
  | succ m ih =>
    unfold State.flushLink
    split
    · exact h
    · split
      · exact h
      · exact ih _ (k.operate _ _ _ _ (k.own _ n _ (k.arrivals s n _ h)))

theorem Kept.flush {P : State → Prop} (k : Kept P) (n : LineNo) (s : State) (h : P s) : P (s.flush n) :=
  k.flushLink n _ s h

theorem Kept.flushAll {P : State → Prop} (k : Kept P) (s : State) (h : P s) : P s.flushAll := by
  unfold State.flushAll
  exact k.flush 7 _ (k.flush 6 _ (k.flush 5 _ (k.flush 4 _ (k.flush 3 _ (k.flush 2 _ (k.flush 1 _ (k.flush 0 _ h)))))))

theorem Kept.afterOperation {P : State → Prop} (k : Kept P) (b : Block) (s : State) (h : P s) :
    P (s.afterOperation b) := by
  cases b with
  | passThrough => exact h
  | line n => exact k.react s h
  | link n => exact k.flush n s h
  | alert => exact h
  | config => exact k.flushAll s h
  | report => exact h

theorem Kept.operation {P : State → Prop} (k : Kept P) (b : Block) (acts : List Act) (c : Option Cont) (s : State)
    (h : P s) : P (s.operation b acts c) :=
  k.afterOperation b _ (k.operate b acts c s h)

theorem Kept.refuseOutright {P : State → Prop} (k : Kept P) (w : HostWrite) (r : RefuseReason) (st : Byte) (s : State)
    (h : P s) : P (s.refuseOutright w r st) := by
  unfold State.refuseOutright
  exact k.operate _ _ _ _ (k.cycle s _ _ h)

theorem Kept.endWait {P : State → Prop} (k : Kept P) (b : Block) (s : State) (h : P s) : P (s.endWait b) := by
  cases b with
  | passThrough => exact h
  | line n => exact h
  | link n =>
    unfold State.endWait
    dsimp only
    split
    · exact h
    · exact k.arrivals s n _ h
  | alert => exact h
  | config => exact h
  | report => exact h

theorem Kept.resumeAll {P : State → Prop} (k : Kept P) (ws : List WaitingPost) (s : State) (h : P s) :
    P (s.resumeAll ws) := by
  have h1 : ∀ (l : List WaitingPost) (t : State), P t → P (l.foldl State.resume t) := by
    intro l
    induction l with
    | nil => intro t ht; exact ht
    | cons w rest ih => intro t ht; exact ih _ (k.operate _ _ _ _ ht)
  have h2 : ∀ (l : List WaitingPost) (t : State), P t → P (l.foldl State.resumed t) := by
    intro l
    induction l with
    | nil => intro t ht; exact ht
    | cons w rest ih => intro t ht; exact ih _ (k.afterOperation _ _ (k.endWait _ _ ht))
  exact h2 ws _ (h1 ws s h)

theorem Kept.acceptWaiting {P : State → Prop} (k : Kept P) (ws : List WaitingPost) (s : State) (h : P s) :
    P (State.acceptWaiting ws s).1 := by
  induction ws generalizing s with
  | nil => exact k.wait s [] h
  | cons w rest ih =>
    unfold State.acceptWaiting
    split
    · next hq => exact ih _ (k.accept s _ h (by simp [State.takesPost, hq]))
    · split
      · next hl => exact k.wait _ rest (k.accept s _ h (by simp [State.takesPost, hl]))
      · exact k.wait s _ h

end Sys2Proof.Machine
end

