-- ==== Sys2Proof/Laws/Memory.lean ====
section
/-! SUPPORT. What reading a byte gives after a write, and that every write keeps the canonical form. -/

namespace Sys2Proof.Machine

/-! ### The canonical form, as two properties of the list -/

/-- The form says: no listed byte is blank, and the addresses rise. -/
theorem Memory.wf_iff (m : List Host.Cell) :
    Memory.wf m = true ↔ (∀ c ∈ m, c.2 ≠ Memory.blank) ∧ (m.map Prod.fst).Pairwise (· < ·) := by
  induction m with
  | nil => simp [Memory.wf]
  | cons c rest ih =>
    cases rest with
    | nil => simp [Memory.wf]
    | cons d rest =>
      simp only [Memory.wf, Bool.and_eq_true, bne_iff_ne, decide_eq_true_eq, ih, List.mem_cons,
        forall_eq_or_imp, List.map_cons, List.pairwise_cons]
      constructor
      · rintro ⟨⟨hc, hlt⟩, ⟨hd, hall⟩, hp, hpw⟩
        refine ⟨⟨hc, hd, hall⟩, ⟨hlt, ?_⟩, hp, hpw⟩
        intro a ha
        exact lt_trans hlt (hp a ha)
      · rintro ⟨⟨hc, hd, hall⟩, ⟨hlt, -⟩, hp, hpw⟩
        exact ⟨⟨hc, hlt⟩, ⟨hd, hall⟩, hp, hpw⟩

/-! ### Reading after a write -/

theorem Memory.get_of_not_mem (m : List Host.Cell) (a : Nat) (h : ∀ c ∈ m, c.1 ≠ a) :
    Memory.get m a = Memory.blank := by
  induction m with
  | nil => rfl
  | cons c rest ih =>
    simp only [List.mem_cons, forall_eq_or_imp] at h
    simp [Memory.get, h.1, ih h.2]

theorem Memory.get_filter_other (m : List Host.Cell) {a b : Nat} (h : b ≠ a) :
    Memory.get (m.filter (fun c => c.1 != a)) b = Memory.get m b := by
  induction m with
  | nil => rfl
  | cons c rest ih =>
    by_cases hc : c.1 = a
    · have : c.1 ≠ b := fun e => h (e.symm.trans hc)
      simp [hc, Memory.get, ih, Ne.symm h]
    · simp [hc, Memory.get, ih]

theorem Memory.get_place_same (m : List Host.Cell) (a : Nat) (v : Byte) (h : ∀ c ∈ m, c.1 ≠ a) :
    Memory.get (Memory.place m a v) a = v := by
  induction m with
  | nil => simp [Memory.place, Memory.get]
  | cons c rest ih =>
    simp only [List.mem_cons, forall_eq_or_imp] at h
    by_cases hc : a < c.1
    · simp [Memory.place, hc, Memory.get]
    · simp [Memory.place, hc, Memory.get, h.1, ih h.2]

theorem Memory.get_place_other (m : List Host.Cell) {a b : Nat} (v : Byte) (h : b ≠ a) :
    Memory.get (Memory.place m a v) b = Memory.get m b := by
  induction m with
  | nil => simp [Memory.place, Memory.get, Ne.symm h]
  | cons c rest ih =>
    by_cases hc : a < c.1
    · simp [Memory.place, hc, Memory.get, Ne.symm h]
    · simp [Memory.place, hc, Memory.get, ih]

/-- A byte reads as what was last written to it. -/
@[simp] theorem Memory.get_set_same (m : List Host.Cell) (a : Nat) (v : Byte) :
    Memory.get (Memory.set m a v) a = v := by
  have h : ∀ c ∈ m.filter (fun c => c.1 != a), c.1 ≠ a := by
    intro c hc
    simpa using (List.mem_filter.mp hc).2
  unfold Memory.set
  by_cases hv : v = Memory.blank
  · simp only [hv, if_true]
    exact Memory.get_of_not_mem _ _ h
  · simp only [hv, if_false]
    exact Memory.get_place_same _ _ _ h

/-- A write leaves every other byte as it was. -/
theorem Memory.get_set_other (m : List Host.Cell) {a b : Nat} (v : Byte) (h : b ≠ a) :
    Memory.get (Memory.set m a v) b = Memory.get m b := by
  unfold Memory.set
  by_cases hv : v = Memory.blank
  · simp only [hv, if_true]
    exact Memory.get_filter_other m h
  · simp only [hv, if_false]
    rw [Memory.get_place_other _ _ h, Memory.get_filter_other m h]

/-! ### The canonical form is kept -/

theorem Memory.mem_place (m : List Host.Cell) (a : Nat) (v : Byte) (c : Host.Cell)
    (h : c ∈ Memory.place m a v) : c = (a, v) ∨ c ∈ m := by
  induction m with
  | nil => simpa [Memory.place] using h
  | cons d rest ih =>
    by_cases hd : a < d.1
    · simpa [Memory.place, hd] using h
    · simp only [Memory.place, hd, if_false, List.mem_cons] at h
      rcases h with h | h
      · exact Or.inr (by simp [h])
      · rcases ih h with h' | h'
        · exact Or.inl h'
        · exact Or.inr (by simp [h'])

theorem Memory.place_rising (m : List Host.Cell) (a : Nat) (v : Byte) (hp : (m.map Prod.fst).Pairwise (· < ·))
    (hn : ∀ c ∈ m, c.1 ≠ a) : ((Memory.place m a v).map Prod.fst).Pairwise (· < ·) := by
  induction m with
  | nil => simp [Memory.place]
  | cons d rest ih =>
    simp only [List.map_cons, List.pairwise_cons] at hp
    simp only [List.mem_cons, forall_eq_or_imp] at hn
    by_cases hd : a < d.1
    · simp only [Memory.place, hd, if_true, List.map_cons, List.pairwise_cons, List.mem_cons, forall_eq_or_imp]
      refine ⟨⟨trivial, ?_⟩, hp.1, hp.2⟩
      intro x hx
      exact lt_trans hd (hp.1 x hx)
    · simp only [Memory.place, hd, if_false, List.map_cons, List.pairwise_cons]
      refine ⟨?_, ih hp.2 hn.2⟩
      intro x hx
      obtain ⟨c, hc, rfl⟩ := List.mem_map.mp hx
      rcases Memory.mem_place rest a v c hc with rfl | hc'
      · exact lt_of_le_of_ne (Nat.le_of_not_lt hd) hn.1
      · exact hp.1 _ (List.mem_map_of_mem hc')

/-- A write of a byte keeps the canonical form. -/
theorem Memory.set_wf (m : List Host.Cell) (a : Nat) (v : Byte) (h : Memory.wf m = true) :
    Memory.wf (Memory.set m a v) = true := by
  rw [Memory.wf_iff] at h ⊢
  obtain ⟨hb, hp⟩ := h
  have hfb : ∀ c ∈ m.filter (fun c => c.1 != a), c.2 ≠ Memory.blank := fun c hc => hb c (List.mem_filter.mp hc).1
  have hfp : ((m.filter (fun c => c.1 != a)).map Prod.fst).Pairwise (· < ·) :=
    hp.sublist (List.Sublist.map _ List.filter_sublist)
  have hn : ∀ c ∈ m.filter (fun c => c.1 != a), c.1 ≠ a := by
    intro c hc
    simpa using (List.mem_filter.mp hc).2
  unfold Memory.set
  by_cases hv : v = Memory.blank
  · simp only [hv, if_true]
    exact ⟨hfb, hfp⟩
  · simp only [hv, if_false]
    refine ⟨?_, Memory.place_rising _ a v hfp hn⟩
    intro c hc
    rcases Memory.mem_place _ a v c hc with rfl | hc'
    · exact hv
    · exact hfb c hc'

/-- A write of the lanes of a word keeps the canonical form. -/
theorem writeLanes_wf (m : List Host.Cell) (a : Addr) (v : Word) (lanes : Lanes) (h : Memory.wf m = true) :
    Memory.wf (writeLanes m a v lanes) = true := by
  cases lanes
  · exact Memory.set_wf _ _ _ h
  · exact Memory.set_wf _ _ _ h
  · exact Memory.set_wf _ _ _ (Memory.set_wf _ _ _ h)

end Sys2Proof.Machine
end

