-- ==== Sys2Proof/Laws/Samples.lean ====
section
/-! SUPPORT. What the steps of a SAMPLE can do: its accounting is `accountedAs` (`meterStep_of_accountedAs`), its measurement
words are `measured` (`measurementPosts_postsOf`), its checks post at four words of the line and otherwise only report,
request, stop and observe (`sampleChecks_acts`), and such acts, once their posts are taken, have the effect that
`foldl_perform_ofLine` says. -/

namespace Sys2Proof.Machine

/-! ### Acts of a sample -/

/-- An act a SAMPLE of line n may do. -/
def Act.isOfLine (n : LineNo) : Act → Bool
  | .post _ => true
  | .hand _ => true
  | .request m _ => m == n
  | .stop m => m == n
  | .observe _ => true
  | _ => false

/-- The state after such acts, whose posts have all been accepted. -/
def sampleActs (s : State) (n : LineNo) (acts : List Act) : State :=
  State.postAll
    { s with
      links := s.links.set n { s.link n with arrivals := (s.link n).arrivals ++ arrivalsOf acts }
      report := { s.report with handed := s.report.handed ++ reportsOf acts }
      observations := s.observations ++ observationsOf acts }
    (postsOf acts)

/-- The effect of such acts, done in order. -/
theorem foldl_perform_ofLine (n : LineNo) (acts : List Act) (s : State) (h : ∀ a ∈ acts, a.isOfLine n = true) :
    acts.foldl State.perform s = sampleActs s n acts := by
  induction acts generalizing s with
  | nil =>
    have hself : s.links.set n s.links[n] = s.links := by
      ext i hi
      simp
    simp only [List.foldl_nil, sampleActs, arrivalsOf, reportsOf, observationsOf, postsOf, List.filterMap_nil,
      List.append_nil, State.postAll, State.link]
    rcases s with ⟨⟩
    congr 1
    exact hself.symm
  | cons a rest ih =>
    have hr : ∀ a ∈ rest, a.isOfLine n = true := fun b hb => h b (List.mem_cons_of_mem _ hb)
    have ha := h a List.mem_cons_self
    rw [List.foldl_cons, ih _ hr]
    cases a with
    | post p =>
      simp [sampleActs, arrivalsOf, reportsOf, observationsOf, postsOf, State.perform, State.link, State.postAll,
        State.accept]
    | hand r =>
      simp [sampleActs, arrivalsOf, reportsOf, observationsOf, postsOf, State.perform, State.hand, State.link,
        State.postAll]
    | observe o =>
      simp [sampleActs, arrivalsOf, reportsOf, observationsOf, postsOf, State.perform, State.link, State.postAll]
    | request m k =>
      obtain rfl : m = n := by simpa [Act.isOfLine] using ha
      simp [sampleActs, arrivalsOf, reportsOf, observationsOf, postsOf, State.perform, State.arrive, State.setLink,
        State.link, State.postAll]
    | stop m =>
      obtain rfl : m = n := by simpa [Act.isOfLine] using ha
      simp [sampleActs, arrivalsOf, reportsOf, observationsOf, postsOf, State.perform, State.arrive, State.setLink,
        State.link, State.postAll]
    | _ => cases ha

/-! ### The accounting -/

/-- Step 2 is the accounting of an open stage (R96 to R98). -/
theorem meterStep_of_accountedAs (n : LineNo) (b : Line) (x : Sample) (l : Line) (reports : List Report)
    (requests : List LinkArrival) (h : accountedAs n b x l reports requests)
    (hst : b.state.flowing = true ∨ b.state.idleBound = true) :
    ∃ acts, meterStep n (afterStep1 b x) x = (l, acts) ∧ arrivalsOf acts = requests ∧ reportsOf acts = reports ∧
      observationsOf acts = [] ∧ postsOf acts = [] ∧ ∀ a ∈ acts, a.isOfLine n = true := by
  have hm : meterStep n (afterStep1 b x) x = meterAccount n (afterStep1 b x) x := by
    have : (afterStep1 b x).state = b.state := rfl
    unfold meterStep
    rw [this]
    rcases b with ⟨st⟩
    cases st <;> simp [LineState.flowing, LineState.idleBound] at hst ⊢
  rw [hm]
  rcases h with ⟨h1, rfl, rfl, rfl⟩ | ⟨m, h1, h2, rfl, rfl, rfl⟩ | ⟨m, h1, h2, rfl, h3, h4⟩
  · refine ⟨[], ?_, rfl, rfl, rfl, rfl, nofun⟩
    have : (afterStep1 b x).meterBaseline = none := h1
    simp [meterAccount, this]
  · refine ⟨[.hand (meterJumpReport n (afterStep1 b x) x m)], ?_, rfl, rfl, rfl, rfl, by simp [Act.isOfLine]⟩
    have : (afterStep1 b x).meterBaseline = some m := h1
    have h2' : (afterStep1 b x).stageWord 17 < x.meter - m := h2
    simp [meterAccount, this, h2']
  · have : (afterStep1 b x).meterBaseline = some m := h1
    have h2' : ¬ (afterStep1 b x).stageWord 17 < x.meter - m := by
      have : (afterStep1 b x).stageWord 17 = b.stageWord 17 := rfl
      rw [this]
      simpa [BitVec.not_lt] using h2
    have hl : l.lastSentCeiling = b.lastSentCeiling := by
      rw [h3]
      rfl
    refine ⟨if b.state.flowing = true ∧ l.volume ≠ b.volume ∧
        l.effectiveCeiling.toNat + 10 ≤ b.lastSentCeiling.toNat then [.request n .setpoint] else [],
      ?_, ?_, ?_, ?_, ?_, ?_⟩
    · unfold meterAccount
      rw [this]
      dsimp only
      rw [if_neg h2', ← h3]
      have e1 : (afterStep1 b x).state = b.state := rfl
      have e2 : (afterStep1 b x).volume = b.volume := rfl
      congr 1
      by_cases hc : b.state.flowing = true ∧ l.volume ≠ b.volume ∧
          l.effectiveCeiling.toNat + 10 ≤ b.lastSentCeiling.toNat
      · rw [if_pos hc, if_pos]
        simp [e1, e2, hc.1, hc.2.1, Line.ceilingDropped, hl, hc.2.2]
      · rw [if_neg hc, if_neg]
        simpa [e1, e2, Line.ceilingDropped, hl, and_assoc] using hc
    · rw [h4]
      split <;> rfl
    all_goals split <;> first | rfl | simp [Act.isOfLine]

/-! ### The measurement words -/

/-- The words of line n that a SAMPLE may post. -/
def sampleAddrs (n : LineNo) : List Addr := [4, 6, 7, 8, 9, 10, 11, 12, 13, 14, 15, 16, 17, 18, 19].map (lineAddr n)

/-- Step 3 only posts, at the words of its line. -/
theorem measurementPosts_acts (n : LineNo) (l : Line) (x : Sample) :
    ∀ a ∈ measurementPosts n l x, a.isOfLine n = true ∧ ∀ p, a = .post p → p.addr ∈ sampleAddrs n := by
  intro a ha
  unfold measurementPosts postLine at ha
  split at ha <;> simp at ha <;> rcases ha with h | h | h | h | h | h | h | h | h | h | h | h | h <;> subst_vars <;>
    simp [Act.isOfLine, sampleAddrs]

/-- The posts of step 3 are the measurement words. -/
theorem measurementPosts_postsOf (n : LineNo) (l : Line) (x : Sample) :
    postsOf (measurementPosts n l x) = measured n l x ∧ arrivalsOf (measurementPosts n l x) = [] ∧
      reportsOf (measurementPosts n l x) = [] ∧ observationsOf (measurementPosts n l x) = [] := by
  by_cases h : l.state = .closing
  · simp only [measurementPosts, measured, dwellWord, h, if_pos, postsOf, arrivalsOf, reportsOf, observationsOf,
      postLine, lineWord]
    refine ⟨?_, rfl, rfl, rfl⟩
    cases hd : l.dwell <;> simp [Timer.secondsLeft]
  · simp only [measurementPosts, measured, dwellWord, h, if_false, postsOf, arrivalsOf, reportsOf, observationsOf,
      postLine, lineWord]
    exact ⟨rfl, rfl, rfl, rfl⟩

/-! ### The checks -/

/-- An act of a SAMPLE of line n that posts, if it posts, a word of its state, reason, flow or dwell. -/
def movePost (n : LineNo) (a : Act) : Prop :=
  a.isOfLine n = true ∧ ∀ p, a = .post p → p.addr ∈ [lineAddr n 4, lineAddr n 6, lineAddr n 15, lineAddr n 19]

/-- The checks do no other act. -/
theorem sampleChecks_acts (n : LineNo) (l : Line) (x : Sample) (now : Long) :
    ∀ a ∈ (sampleChecks n l x now).2, movePost n a := by
  have trip : ∀ l c t a b, ∀ y ∈ (moveActs (tripMove n l c t a b)).2, movePost n y := by
    intro l c t a b y hy
    simp only [moveActs, tripMove, dwellPosts, statePosts, postLine] at hy
    split at hy <;> split at hy <;> simp at hy <;> rcases hy with h | h | h | h | h | h <;>
      subst_vars <;> simp [movePost, Act.isOfLine]
  have hold : ∀ l c t a b, ∀ y ∈ (moveActs (holdMove n l c t a b)).2, movePost n y := by
    intro l c t a b y hy
    simp only [moveActs, holdMove, dwellPosts, statePosts, postLine] at hy
    split at hy <;> simp at hy <;> rcases hy with h | h | h | h | h | h <;> subst_vars <;> simp [movePost, Act.isOfLine]
  have end_ : ∀ l c t, ∀ y ∈ (moveActs (endMove n l c t)).2, movePost n y := by
    intro l c t y hy
    simp only [moveActs, endMove, dwellPosts, statePosts, postLine] at hy
    split at hy <;> simp at hy <;> rcases hy with h | h | h | h | h | h <;> subst_vars <;> simp [movePost, Act.isOfLine]
  have ref : ∀ l, ∀ y ∈ (refusalCheck n l x).2, movePost n y := by
    intro l y hy
    simp only [refusalCheck, statePosts, postLine] at hy
    split at hy <;> split at hy <;> simp at hy <;> rcases hy with h | h | h <;> subst_vars <;> simp [movePost, Act.isOfLine]
  have obs : ∀ l r b, ∀ y ∈ (observed n l x r b).2, movePost n y := by
    intro l r b y hy
    simp only [observed, postLine] at hy
    cases hs : l.stage <;> simp [hs] at hy <;> (try rcases hy with h | h) <;> subst_vars <;>
      simp [movePost, Act.isOfLine]
  have idle : ∀ l, ∀ y ∈ (boundChecks n l x).2, movePost n y := by
    intro l y hy
    unfold boundChecks at hy
    split at hy
    · exact trip _ _ _ _ _ y hy
    · unfold idleChecks at hy
      split at hy
      · cases hy
      · dsimp only at hy
        split at hy
        · cases hy
        · split at hy
          · exact obs _ _ _ y hy
          · split at hy
            · exact obs _ _ _ y hy
            · cases hy
  have flow : ∀ l, ∀ y ∈ (flowingChecks n l x now).2, movePost n y := by
    intro l y hy
    unfold flowingChecks at hy
    split at hy
    · exact trip _ _ _ _ _ y hy
    · split at hy
      · exact hold _ _ _ _ _ y hy
      · split at hy
        · exact end_ _ _ _ y hy
        · split at hy
          · exact end_ _ _ _ y hy
          · exact ref _ y hy
  intro y hy
  unfold sampleChecks at hy
  split at hy <;> first | exact idle _ y hy | exact flow _ y hy | cases hy

end Sys2Proof.Machine
end

