-- ==== Sys2Proof/WellFormed.lean ====
section
/-! DEFINITION. When a command is well formed: the ranges its row of the table and its rule give its operands. -/

namespace Sys2Proof

/-- The command is one its row names. Every other operand is in range by its type. -/
def Instr.wellFormed : Instr → Bool
  -- each block posts once (R175)
  | .reset order => order.Nodup
  -- a word is at an even address (00_scope.md)
  | .hostRead a => a.toNat % 2 == 0
  | .hostWrite a _ _ => a.toNat % 2 == 0
  -- R156: codes 05h to FFh are unknown
  | .guardUnknownCommand code _ => 5 ≤ code.toNat
  -- R61: codes 09h to FFh are unknown
  | .lineUnknownCommand _ code _ => 9 ≤ code.toNat
  -- R119: the event carries ACK_TIMEOUT or STOP_ALL
  | .plantStopEvent _ cause => cause != .reset
  -- R135: an uplink kind code starts a frame, so it is no framing error
  | .framingError _ c => c != 0x5A#8 && c != 0x3C#8
  -- R135: an uplink kind code, or a possible sync code (R168: 01h to FEh, no downlink kind code)
  | .frameStart _ c => c != 0x00#8 && c != 0xFF#8 && c != 0xA5#8 && c != 0xC3#8 && c != 0x0F#8 && c != 0x69#8
  -- every other operand is in range by its type
  | .hostReadGrant => true
  | .hostWriteGrant => true
  | .insertQueueDrain => true
  | .tableReaderGrant => true
  | .guardNoCommand _ => true
  | .acknowledge _ => true
  | .stopAll _ => true
  | .releaseStop _ => true
  | .loadConfig _ => true
  | .consumer _ => true
  | .lineNoCommand _ _ => true
  | .bind _ _ => true
  | .start _ _ => true
  | .hold _ _ => true
  | .resume _ _ => true
  | .endStage _ _ => true
  | .release _ _ => true
  | .resync _ _ => true
  | .rearmFlags _ _ => true
  | .flowTarget _ _ => true
  | .ceilingRequest _ _ => true
  | .mixRequest _ _ => true
  | .bindCopyComplete _ => true
  | .sample _ => true
  | .rampExpiry _ => true
  | .dwellExpiry _ => true
  | .settleExpiry _ => true
  | .linkStateChange _ => true
  | .unansweredCommand _ => true
  | .refusedLocal _ => true
  | .holdDemand _ => true
  | .riseObserved _ => true
  | .returnObserved _ => true
  | .clockMissing _ => true
  | .sampleFrame _ _ => true
  | .sampleJudgedAtLink _ => true
  | .answer _ => true
  | .frameRequest _ => true
  | .stopRequest _ => true
  | .receiverRestart _ => true
  | .rearm _ => true
  | .frameSent _ => true
  | .answerTimeout _ => true
  | .refreshTimerExpiry _ => true
  | .sampleTimeout _ => true
  | .alertRaise _ => true
  | .ackTimeout => true
  | .loadNotice => true
  | .report => true
  | .ringRecordWrite => true
  | .ringPlacement => true
  | .loadJobComplete => true
  | .uplinkClockEdge _ => true
  | .syncFound _ _ => true
  | .sync1Character _ _ => true
  | .answerFrame _ _ => true

end Sys2Proof
end

