-- ==== Sys2Proof/Tests/Slice0.lean ====
section
/-! SUPPORT. Small tests of the model: the well-formedness smoke tests, the spec's worked values, and a witness for the
hypotheses of each statement. -/

namespace Sys2Proof.Tests

open Sys2Proof Sys2Proof.Machine

/-! ### Well-formedness: each check refuses an ill-formed command -/

theorem test_reset_names_a_block_once : Instr.wellFormed (.reset [.alert, .alert]) = false := by decide
theorem test_read_address_is_even : Instr.wellFormed (.hostRead 0x40001) = false := by decide
theorem test_write_address_is_even : Instr.wellFormed (.hostWrite 0x40001 0 .both) = false := by decide
theorem test_guard_code_is_unknown : Instr.wellFormed (.guardUnknownCommand 4 0) = false := by decide
theorem test_line_code_is_unknown : Instr.wellFormed (.lineUnknownCommand 0 8 0) = false := by decide
theorem test_plant_stop_event_carries_a_cause : Instr.wellFormed (.plantStopEvent 0 .reset) = false := by decide
theorem test_a_kind_code_is_no_framing_error :
    Instr.wellFormed (.framingError 0 0x5A) = false ∧ Instr.wellFormed (.framingError 0 0x3C) = false := by decide
theorem test_a_frame_starts_with_no_downlink_kind :
    Instr.wellFormed (.frameStart 0 0xA5) = false ∧ Instr.wellFormed (.frameStart 0 0x5A) = true := by decide

/-! ### Worked values of the spec -/

/-- 00_scope.md: the reset state is the state after RESET. -/
theorem test_reset_state : exec (.reset []) State.cleared = .next State.reset := rfl

/-- Chapter 11: the CRC of the nine digits, and the STOP frame of its worked example. -/
theorem test_crc :
    crc [0x31, 0x32, 0x33, 0x34, 0x35, 0x36, 0x37, 0x38, 0x39] = 0x29B1 ∧
    frameChars 0x16 (.command .stop) 0 [] = [0x16, 0x16, 0x0F, 0x00, 0x0D, 0x31] := by decide +kernel

/-- R4's worked example: the table at 40000h. -/
theorem test_stage_of_an_address :
    recordWord 0x40000 0x40800 = 16 ∧ (0x40800 - 0x40000) / 96 = 21 ∧
    recordWord 0x40000 0x40C4C = 38 ∧ recordWord 0x40000 0x417FE = 47 ∧
    recordAddr 0x40000 63 47 = 0x417FE := by decide

/-- R2: the class of one address of each kind, at the ends of the guard block's areas. -/
theorem test_classes :
    classify 0xFF7FE = .below ∧ classify 0xFF800 = .plain ∧ classify 0xFF83E = .plain ∧
    classify 0xFF840 = .guardCommand ∧ classify 0xFF842 = .partOwned ∧ classify 0xFF84A = .consumer ∧
    classify 0xFF852 = .partOwned ∧ classify 0xFF854 = .plain ∧ classify 0xFF880 = .control 0 ∧
    classify 0xFF882 = .setpoint 0 1 ∧ classify 0xFFC06 = .setpoint 7 3 ∧ classify 0xFFC2C = .partOwned ∧
    classify 0xFFC2E = .plain ∧ classify 0xFFC80 = .plain ∧ classify 0xFFFFE = .plain := by decide

/-- R165: the fill marks of rings of 16, 64, 100 and 256 records. -/
theorem test_fill_marks : [16, 64, 100, 256].map fillMark = [11, 47, 74, 191] := by decide

/-! ### States for the witnesses -/

/-- A configuration image that passes every check: all lines enabled, table at 40000h, a ring of 64 records at
10000h. -/
def image : Vector Word 12 := #v[0x00FF, 1, 0x0016, 300, 100, 500, 30, 0, 0x0080, 0x1000, 64, 0xEA88]

/-- A stage copy that passes validation for stage 3, which lists stage 5 as its neighbour. -/
def copy : Vector Word 38 :=
  #v[1001, 100, 150, 2000, 200, 1500, 20, 60, 1000, 50, 0x86A0, 1, 200, 30, 50, 100, 100, 500, 1,
    5, 0, 0, 0, 2, 1, 10, 2, 10, 0, 0, 0, 0, 0, 0, 0, 0, 7, 10]

/-- The copy with its check word. -/
def filling : Filling := { words := copy, check := 0 - checkSum copy.toList }

theorem test_image_and_copy_pass :
    State.loadFailure State.cleared image = none ∧ validateCopy 3 filling = none := by decide

/-- A machine with the image loaded, its ring placed and PLANT STOP released. -/
def running : State :=
  { State.cleared with
    clock := 5000
    config := { image := some image, load := .loaded }
    alert := { plantStop := none, assertedAt := 7 }
    report := { ring := some ⟨0x10000, 64⟩, producer := 5, consumer := 3 } }

/-- A line of stage 3 in a state, with the copy in force. -/
def lineAs (st : LineState) : Line :=
  { state := st, stage := some 3, copyTag := 1, copy := some copy, flowTarget := 100,
    admitted := if st.flowing then 40 else 0, ceilingRequest := 1500, intensityCeiling := 1800,
    effectiveCeiling := 1500, lastSentCeiling := 1400, volume := 500, meterBaseline := some 1000, take := 10,
    linkCopy := .up, lastSampleSeq := some 9, window := [(1000, 100)] }

/-- An UP link with its wire sending fill. -/
def linkUp : Link :=
  { state := .up, watch := .present, watchTimer := .running 1, receiver := .hunting, wire := .fill, wireRate := 1,
    refreshTimer := .running 300, sampleTimer := .running 200, downlinkSeq := 4, unanswered := 1, flagsSeen := 2,
    latchedFlags := 2, latchOpen := false, lastArrival := 4900, lastSeq := 9, lostAt := 33 }

/-- The machine with line 2 holding stage 3 in a state, and link 2 as given. -/
def withLine (l : Line) (k : Link) (ph : Phase) : State :=
  { running with
    lines := running.lines.set 2 l
    links := running.links.set 2 k
    binding := running.binding.set 3 (some ⟨2, ph⟩) }

/-- The machine with line 2 in a state and link 2 UP. -/
def lineIn (st : LineState) : State := withLine (lineAs st) linkUp .bound

/-- A sample at line 2. -/
def sampleA : Sample :=
  { seq := 10, pressure := 1000, flow := 90, meter := 1040, uplift := 10, flags := 0, arrival := 4990 }

/-- The machine with line 2 in a state and a sample in its FIFO. -/
def sampling (st : LineState) (x : Sample) : State := withLine (lineAs st) { linkUp with fifo := [x] } .bound

/-- The machine with line 2 in a state and mail for it. -/
def mailed (st : LineState) (m : LineMail) : State := withLine { lineAs st with mail := m } linkUp .bound

/-- The machine with line 2 injecting, and link 2 as given with one event waiting at its controller. -/
def linkWith (k : Link) (e : LinkInput) : State :=
  withLine (lineAs .injecting) { k with arrivals := [⟨e, false⟩] } .bound

/-- No answered setpoint write is held in a state whose cycle is idle. -/
theorem idle_not_answered {s : State} (h : s.cycle = .idle) : ∀ w v r b, s.cycle ≠ .answered w v r b := by
  intro w v r b; rw [h]; exact nofun

/-! ### Witnesses: for each statement, states and operands that meet its hypotheses, clause by clause -/

/-- A machine whose Alert Controller, line 2, link 2, Configuration Unit and Report Writer all wait on a full queue. -/
def crowded : State :=
  { running with
    queue := State.startUpLines ++ State.startUpLinks
    drain := true
    waiting :=
      [{ block := .alert, post := ⟨0xFF842, 0x0103⟩ }, { block := .line 2, post := ⟨0xFF986, 1⟩ },
       { block := .link 2, post := ⟨0xFF9AC, 1⟩ }, { block := .config, post := ⟨0xFF848, 1⟩ }] }

theorem witness_StepRunsTheFrontCommand :
    ({ running with pending := [.report, .hostReadGrant] } : State).pending = .report :: [.hostReadGrant] := rfl

theorem witness_AnEmptyQueueIsOneMillisecond : (lineIn .injecting).pending = [] := rfl

theorem witness_HostReadsAreForwardedOrGranted :
    (∃ s : State, s.cycle = .idle ∧ queuedData s.queue (wordAddr 0xFF888) = some 0xFF00 ∧
      queuedData s.queue (wordAddr 0xFF800) = none) ∧
    ∃ s : State, s.cycle = .read 0x40000 ∧ s.granted = some .host :=
  ⟨⟨crowded, by decide⟩, ⟨{ running with cycle := .read 0x40000 }, by decide⟩⟩

theorem witness_AHostWriteIsTakenOrRefusedOutright :
    running.cycle = .idle ∧ running.room 3 ∧ classify (wordAddr 0xFF83E) = .plain ∧
    classify (wordAddr 0xFF7FE) = .below ∧ classify (wordAddr 0xFF842) = .partOwned ∧
    classify (wordAddr 0xFF840) = .guardCommand ∧ Lanes.low ≠ .both := by decide

theorem witness_AWatchedWriteIsItsCommandAndWaitsForItsOwner :
    watchedWrite (.start 2 0) = some (fullWrite 0xFF980 0x0200, .line 2) ∧
    crowded.cycle = .idle ∧ crowded.busy (.line 2) = true ∧
    ({ crowded with cycle := .held (fullWrite 0xFF980 0x0200) } : State).cycle = .held (fullWrite 0xFF980 0x0200) ∧
    ({ lineIn .bound with cycle := .held (fullWrite 0xFF980 0x0200) } : State).busy (.line 2) = false := by decide

theorem witness_AGrantedWriteIsWrittenOrRefused :
    (∃ w, ({ lineIn .bound with cycle := .write w } : State).granted = some .host ∧ classify w.addr ≠ .below) ∧
    (∃ w, ({ lineIn .bound with cycle := .write w } : State).granted = some .host ∧
      (lineIn .bound).ringClass w.addr = false ∧ (lineIn .bound).stageOf w.addr = some 2 ∧
      (lineIn .bound).bindingOf 2 = none) ∧
    (∃ w, ({ lineIn .bound with cycle := .write w } : State).granted = some .host ∧ (lineIn .bound).room 3 ∧
      classify w.addr = .below ∧ (lineIn .bound).ringClass w.addr = true) ∧
    ∃ w, ({ lineIn .bound with cycle := .write w } : State).granted = some .host ∧
      classify w.addr = .below ∧ (lineIn .bound).ringClass w.addr = false ∧
      (lineIn .bound).stageOf w.addr = some 3 ∧ (lineIn .bound).bindingOf 3 ≠ none :=
  ⟨⟨⟨0xFF800, 5, .low⟩, by decide⟩, ⟨⟨0x4011E, 5, .both⟩, by decide⟩, ⟨⟨0x103FE, 5, .high⟩, by decide⟩,
    ⟨⟨0x40120, 5, .both⟩, by decide⟩⟩

theorem witness_AnAddressGivesItsStageAndWord :
    running.tableBase = some 0x40000 ∧ (0x40000 : Nat) ≤ (0x417FE : Addr).toNat ∧
    (0x417FE : Addr).toNat < 0x40000 + 6144 ∧ 0x40000 + 6144 ≤ (0x41800 : Addr).toNat := by decide

/-- A machine in which the host, the queue and the reader wait at a run count. -/
def contended (count : Nat) (jobs : List Job) (queue : List Post) (cycle : HostCycle) : State :=
  { lineIn .binding with runCount := count, jobs := jobs, queue := queue, cycle := cycle }

theorem witness_TheRunCountCountsHostGrants :
    (contended 7 [.load 3] [⟨0xFF840, 1⟩] (.read 0x40000)).granted = some .host ∧
    (contended 7 [] [⟨0xFF840, 1⟩] (.write ⟨0xFF840, 1, .both⟩)).granted = some .host ∧
    (contended 8 [] [⟨0xFF840, 1⟩] (.read 0x40000)).granted = some .queue ∧
    (contended 8 [.load 3] [] (.read 0x40000)).granted = some .reader ∧
    (contended 8 [.load 3] [] (.read 0x40000)).tableBase ≠ none ∧ RunSound (contended 8 [] [] .idle) ∧
    exec .report State.reset = .next State.reset ∧
    ({ contended 8 [.load 3] [] .idle with port := .reading 0 false } : State).port ≠ .free :=
  ⟨by decide, by decide, by decide, by decide, by decide, by unfold RunSound; decide, rfl, by decide⟩

theorem witness_TheArbiterGrantsByItsTable :
    crowded.port = .free ∧ crowded.drain = true ∧
    (∃ s : State, s.port = .free ∧ s.drain = false ∧ s.hostWaits = true ∧ s.runCount = 7) ∧
    (∃ s : State, s.port = .free ∧ s.drain = false ∧ s.hostWaits = true ∧ s.runCount = 8 ∧ s.jobs ≠ []) ∧
    (∃ s : State, s.port = .free ∧ s.drain = false ∧ s.hostWaits = true ∧ s.runCount = 8 ∧ s.jobs = [] ∧
      s.queue ≠ []) ∧
    (∃ s : State, s.port = .free ∧ s.drain = false ∧ s.hostWaits = false ∧ s.jobs ≠ []) ∧
    (∃ s : State, s.port = .free ∧ s.drain = false ∧ s.hostWaits = false ∧ s.jobs = [] ∧ s.queue ≠ []) ∧
    ∃ s : State, s.port = .free ∧ s.drain = false ∧ s.hostWaits = false ∧ s.jobs = [] ∧ s.queue = [] :=
  ⟨rfl, rfl, ⟨contended 7 [] [] (.read 0), by decide⟩, ⟨contended 8 [.load 3] [] (.read 0), by decide⟩,
    ⟨contended 8 [] [⟨0xFF840, 1⟩] (.read 0), by decide⟩, ⟨contended 8 [.load 3] [⟨0xFF840, 1⟩] .idle, by decide⟩,
    ⟨contended 8 [] [⟨0xFF840, 1⟩] .idle, by decide⟩, ⟨contended 8 [] [] .idle, by decide⟩⟩

theorem witness_APostJoinsTheTailOrWaits :
    queued crowded.queue 0xFF888 = true ∧ queued crowded.queue 0xFF842 = false ∧ crowded.queue.length = 16 ∧
    (crowded.queue.map Post.addr).Nodup ∧ running.queue.length < 16 := by
  decide

theorem witness_ADrainWritesTheHeadAndFreesAPlace :
    (∃ (s : State) (e : Post) (rest : List Post), s.queue = e :: rest ∧ s.granted = some .queue ∧ s.waiting = []) ∧
    ∃ (e : Post) (rest : List Post) (w : WaitingPost) (ws : List WaitingPost),
      crowded.queue = e :: rest ∧ rest.length = 15 ∧ crowded.granted = some .queue ∧ crowded.waiting = w :: ws ∧
      queued rest w.post.addr = false ∧ w.rest = [] ∧ w.cont = none ∧ w.block = .alert :=
  ⟨⟨contended 0 [] [⟨0xFF840, 1⟩] .idle, _, _, rfl, rfl, rfl⟩,
    ⟨_, _, _, _, rfl, rfl, rfl, rfl, by decide, rfl, rfl, rfl⟩⟩

/-- The crowded machine, its oldest waiting posts those of lines 3 and 5 at queued addresses. -/
def crowdedTwice : State :=
  { crowded with
    waiting :=
      { block := .line 3, post := ⟨0xFFA08, 1⟩ } :: { block := .line 5, post := ⟨0xFFB08, 1⟩ } :: crowded.waiting }

theorem witness_one_drain_accepts_several_posts :
    ∃ (e : Post) (rest : List Post) (first : List WaitingPost) (w : WaitingPost) (ws : List WaitingPost),
      crowdedTwice.queue = e :: rest ∧ rest.length = 15 ∧ (rest.map Post.addr).Nodup ∧
      crowdedTwice.granted = some .queue ∧ crowdedTwice.waiting = first ++ [w] ++ ws ∧ first.length = 2 ∧
      (∀ x ∈ first, queued rest x.post.addr = true) ∧ queued rest w.post.addr = false ∧
      (∀ x ∈ first ++ [w], (∀ p, Act.post p ∉ x.rest) ∧ x.cont = none ∧
        (x.block = .alert ∨ x.block = .report ∨ x.block = .passThrough ∨ ∃ n, x.block = .line n)) := by
  refine ⟨_, _, crowdedTwice.waiting.take 2, { block := .alert, post := ⟨0xFF842, 0x0103⟩ }, _, rfl, rfl, by decide, rfl,
    rfl, rfl, by decide, by decide, ?_⟩
  intro x hx
  have h : x = { block := .line 3, post := ⟨0xFFA08, 1⟩ } ∨ x = { block := .line 5, post := ⟨0xFFB08, 1⟩ } ∨
      x = { block := .alert, post := ⟨0xFF842, 0x0103⟩ } := by simpa [crowdedTwice, crowded] using hx
  rcases h with rfl | rfl | rfl
  · exact ⟨nofun, rfl, .inr (.inr (.inr ⟨3, rfl⟩))⟩
  · exact ⟨nofun, rfl, .inr (.inr (.inr ⟨5, rfl⟩))⟩
  · exact ⟨nofun, rfl, .inl rfl⟩

/-- Line 2 as given on a full queue, with one waiting post. -/
def stalled (l : Line) (k : Link) (w : WaitingPost) : State :=
  { withLine l k .bound with queue := crowded.queue, drain := true, waiting := [w] }

/-- The measurement word that a stalled sample waits with. -/
def lastMeasurement (st : LineState) (x : Sample) : State :=
  stalled (lineAs st) linkUp { block := .line 2, post := ⟨0xFF9A4, 0⟩, cont := some (.sampleChecks 2 x) }

/-- Link 2 with a request pending and no command in its slot. -/
def requested : Link := { linkUp with pending := [.mix] }

/-- The LINK STATE word that an answer's operation waits with. -/
def answered (k : Link) : State :=
  stalled (lineAs .injecting) k { block := .link 2, post := ⟨0xFF9AA, 0x8000⟩, cont := some (.takePending 2) }

theorem witness_a_full_queue_frees_a_place (l : Line) (k : Link) (b : Block) (p : Post) (acts : List Act)
    (c : Option Cont) (h : queued crowded.queue.tail p.addr = false) :
    ∃ e rest w ws, (stalled l k ⟨b, p, acts, c⟩).queue = e :: rest ∧ rest.length = 15 ∧
      (stalled l k ⟨b, p, acts, c⟩).granted = some .queue ∧ (stalled l k ⟨b, p, acts, c⟩).waiting = w :: ws ∧
      queued rest w.post.addr = false :=
  ⟨_, _, _, _, rfl, rfl, rfl, rfl, h⟩

theorem witness_a_resumed_block_goes_on :
    queued crowded.queue.tail 0xFF9A4 = false ∧ queued crowded.queue.tail 0xFF9AA = false ∧
    queued (crowded.queue.tail ++ [⟨0xFF9A4, 0⟩]) 0xFF988 = true ∧
    queued (crowded.queue.tail ++ [⟨0xFF9AA, 0⟩]) 0xFF9AC = false ∧
    (sampleChecks 2 (lineAs .bound) sampleA 5000).2 = [] ∧
    (sampleChecks 2 { lineAs .injecting with flags := 2 } sampleA 5000).2.head? = some (.post (lineWord 2 15 0)) ∧
    queued (crowded.queue.tail ++ [⟨0xFF9A4, 0⟩]) (lineWord 2 15 0).addr = false ∧
    linkUp.pending = [] ∧ requested.pending = .mix :: [] ∧ requested.wire = .fill ∧ requested.inFlight = none ∧
    requested.stopWaiting = false := by decide

/-- Line 2 being bound to stage 3, with its copy job at the head of the reader's list. -/
def copying (k : Nat) : State :=
  { withLine { state := .binding, stage := some 3, copyTag := 1, filling := some filling } linkUp .binding with
    jobs := [.bindCopy 2 3 1 k] }

/-- A load with its image and its job at word k. -/
def loading (k : Nat) (i : Vector Word 12) : State :=
  { running with config := { image := some image, load := .loading, loadImage := some i }, jobs := [.load k] }

theorem witness_TheReaderDeliversItsNextWord :
    (∀ k, k = 0 ∨ k = 37 ∨ k = 38 ∨ k = 46 ∨ k = 47 →
      (copying k).granted = some .reader ∧ (copying k).jobs = [.bindCopy 2 3 1 k] ∧ k < 48 ∧
      (copying k).tableBase = some 0x40000 ∧ ((copying k).line 2).filling = some filling ∧
      ({ copying k with port := .reading 7 false } : State).jobs = [.bindCopy 2 3 1 k]) ∧
    (∀ k, k = 0 ∨ k = 10 ∨ k = 11 →
      (loading k image).granted = some .reader ∧ (loading k image).jobs = [.load k] ∧ k < 12 ∧
      (loading k image).config.loadImage = some image ∧
      ({ loading k image with port := .reading 7 false } : State).jobs = [.load k]) ∧
    ({ copying 47 with port := .reading 7 true } : State).jobs = .bindCopy 2 3 1 47 :: [] := by
  refine ⟨?_, ?_, by decide⟩
  · rintro k (rfl | rfl | rfl | rfl | rfl) <;> decide
  · rintro k (rfl | rfl | rfl) <;> decide

/-- R33, third row: RELEASE while the word at the head is read. The read ends, delivers nothing and frees the head. -/
theorem test_a_read_under_way_is_withdrawn :
    ∃ t u, exec .tableReaderGrant (copying 47) = .next t ∧ t.port = .reading 0 false ∧
      exec (.release 2 0) t = .next u ∧ u.port = .reading 0 true ∧ u.jobs = [.bindCopy 2 3 1 47] ∧
      (u.line 2).state = .vacant ∧
      exec .tableReaderGrant u = .next { u with port := .free, jobs := [] } :=
  ⟨_, _, rfl, rfl, rfl, rfl, rfl, rfl, rfl⟩

theorem witness_NoCommandAndUnknownCodes :
    running.cycle = .idle ∧ running.busy .alert = false ∧ running.room 1 ∧ 5 ≤ (5 : Byte).toNat ∧
    running.busy (.line 2) = false ∧ 9 ≤ (9 : Byte).toNat := by decide

/-- A machine with these classes pending and this raise sent. -/
def alerted (p : BitVec 6) (c : AlertClass) : State :=
  { running with alert := { running.alert with pending := p, raises := [⟨c, false⟩], ackTimer := .running 0 } }

theorem witness_RaisesAndAcknowledgementsChangeThePendingSet :
    ((alerted 1 .trip).busy .alert = false ∧ (alerted 1 .trip).room 1 ∧ (alerted 1 .trip).alert.raises = [] ++ ⟨.trip, false⟩ :: [] ∧
      (∀ r ∈ ([⟨.ring, false⟩] : List Raise), r.cls ≠ .trip) ∧
      (alerted 1 .trip).alert.pending.getLsbD AlertClass.trip.bit = true ∧
      (alerted 2 .trip).alert.pending.getLsbD AlertClass.trip.bit = false ∧
      (alerted 2 .ring).alert.pending.getLsbD AlertClass.ring.bit = false) ∧
    (alerted 0 .trip).cycle = .idle ∧ (alerted 0 .trip).room 2 ∧ (alerted 0 .trip).alert.pending = 0 ∧
    (alerted 0x20 .trip).alert.pending.getLsbD AlertClass.ring.bit = true ∧
    ∀ k, k < AlertClass.ring.bit → (alerted 0x20 .trip).alert.pending.getLsbD k = false := by decide

/-- A machine whose PLANT STOP is in a state, with the acknowledge timer expired and a load notice sent. -/
def stopped (c : Option PlantCause) : State :=
  { running with alert := { plantStop := c, assertedAt := 7, ackTimer := .running 0, loadNotices := 1 } }

theorem witness_PlantStopIsAssertedByStopAllAndTimeout :
    ∀ c, c = none ∨ c = some .reset ∨ c = some .stopAll ∨ c = some .ackTimeout →
      (stopped c).cycle = .idle ∧ (stopped c).busy .alert = false ∧ (stopped c).room 2 ∧ (stopped c).room 1 ∧
      (stopped c).alert.plantStop = c ∧ (stopped c).alert.ackTimer = .running 0 := by
  rintro c (rfl | rfl | rfl | rfl) <;> decide

theorem witness_PlantStopIsReleasedByReleaseStopAndLoadNotice :
    (stopped none).alert.plantStop = none ∧
    ((lineIn .closing).line 2).state.flowing = true ∧
    ({ lineIn .closing with alert := { plantStop := some .stopAll } } : State).alert.plantStop ≠ none ∧
    ((stopped (some .stopAll)).alert.plantStop = some .stopAll ∧ (stopped (some .stopAll)).config.image ≠ none ∧
      (stopped (some .stopAll)).alert.pending.getLsbD 0 = false ∧
      ∀ n, ((stopped (some .stopAll)).line n).state.flowing = false) ∧
    ((stopped (some .reset)).busy .alert = false ∧ (stopped (some .reset)).room 2 ∧
      (stopped (some .reset)).alert.loadNotices = 0 + 1 ∧ (stopped (some .reset)).alert.plantStop = some .reset) := by
  decide

/-- A TRIP report. -/
def tripped : Report := { kind := .trip, time := 4000 }

theorem witness_a_trip_is_on_its_way :
    ¬ tripComes (stopped (some .stopAll)) ∧
    tripComes { stopped (some .stopAll) with alert := { plantStop := some .stopAll, raises := [⟨.ring, false⟩, ⟨.trip, true⟩] } } ∧
    ¬ tripComes { stopped (some .stopAll) with alert := { plantStop := some .stopAll, raises := [⟨.trip, false⟩] } } ∧
    tripComes { stopped (some .stopAll) with report := { handed := [tripped] } } ∧
    tripComes { stopped (some .stopAll) with waiting := [⟨.line 2, ⟨0xFF98C, 0x30⟩, [.stop 2, .hand tripped], none⟩] } := by
  refine ⟨?_, .inl ⟨⟨.trip, true⟩, by decide, rfl⟩, ?_, .inr (.inl ⟨tripped, by decide, rfl⟩),
    .inr (.inr ⟨_, List.mem_cons_self, tripped, by simp, rfl⟩)⟩
  · rintro (⟨r, h, -⟩ | ⟨r, h, -⟩ | ⟨w, h, -⟩) <;> revert h <;> exact nofun
  · rintro (⟨r, h, hr⟩ | ⟨r, h, -⟩ | ⟨w, h, -⟩)
    · obtain rfl := List.mem_singleton.mp h
      cases hr
    · revert h
      exact nofun
    · revert h
      exact nofun

/-- R161: RELEASE_STOP finds the TRIP report that a line has handed over. -/
theorem test_release_stop_counts_a_trip_on_its_way :
    ∃ t, exec (.releaseStop 0) { stopped (some .stopAll) with report := { handed := [tripped] } } = .next t ∧
      t.alert.plantStop = some .stopAll ∧ t.queue = [statusWord 1 0x0304] :=
  ⟨_, rfl, rfl, rfl⟩

/-- R161, R162: the untaken raise of the PLANT_STOP report of STOP_ALL is no line's trip: RELEASE_STOP releases. -/
theorem test_release_stop_with_the_raise_of_the_stop :
    ∃ t u, exec .report { stopped (some .stopAll) with
        report := { handed := [(stopped none).assertReport .stopAll] } } = .next t ∧
      t.alert.raises = [⟨.trip, false⟩] ∧ exec (.releaseStop 0) t = .next u ∧ u.alert.plantStop = none :=
  ⟨_, _, rfl, rfl, rfl, rfl⟩

theorem witness_BindClaimsItsStage :
    ∀ st : StageNo, st = 0 ∨ st = 63 →
      running.cycle = .idle ∧ running.busy (.line 7) = false ∧ running.room 3 ∧
      (running.line 7).state = .vacant ∧ running.config.enabled 7 = true ∧ running.config.load ≠ .loading ∧
      running.tableBase ≠ none ∧ (BitVec.ofNat 8 st.val).toNat = st.val ∧ running.bindingOf st = none := by
  rintro st (rfl | rfl) <;> decide

theorem witness_StartEntersInjecting :
    (lineIn .bound).cycle = .idle ∧ (lineIn .bound).busy (.line 2) = false ∧ (lineIn .bound).room 4 ∧
    ((lineIn .bound).line 2).state = .bound ∧ ((lineIn .bound).line 2).linkCopy = .up ∧
    (lineIn .bound).alert.plantStop = none ∧ ((lineIn .bound).line 2).flags.getLsbD 1 = false := by decide

theorem witness_HoldAndEndStopAFlowingLine :
    ∀ st, st = .injecting ∨ st = .closing ∨ st = .bound ∨ st = .holding →
      (lineIn st).cycle = .idle ∧ (lineIn st).busy (.line 2) = false ∧ (lineIn st).room 5 ∧
      ((lineIn st).line 2).state = st := by
  rintro st (rfl | rfl | rfl | rfl) <;> decide

/-- Line 2 holding, with a take and an intensity ceiling. -/
def held (take ceiling : Word) : State :=
  withLine { lineAs .holding with take := take, intensityCeiling := ceiling, holdReason := some .host } linkUp .bound

theorem witness_ResumeInjectsOrEnds :
    ((held 199 1500).cycle = .idle ∧ (held 199 1500).busy (.line 2) = false ∧ (held 199 1500).room 4 ∧
      ((held 199 1500).line 2).state = .holding ∧ ((held 199 1500).line 2).linkCopy = .up ∧
      (held 199 1500).alert.plantStop = none ∧ ((held 199 1500).line 2).flags.getLsbD 1 = false) ∧
    ((held 200 1499).line 2).stageWord 12 ≤ ((held 200 1499).line 2).take ∧
    (((held 199 1499).line 2).take < ((held 199 1499).line 2).stageWord 12 ∧
      ((held 199 1499).line 2).intensityCeiling < ((held 199 1499).line 2).stageWord 5) ∧
    ((held 199 1500).line 2).take < ((held 199 1500).line 2).stageWord 12 ∧
    ((held 199 1500).line 2).stageWord 5 ≤ ((held 199 1500).line 2).intensityCeiling := by decide

theorem witness_ReleaseReturnsTheLineToVacant :
    (∀ st, st = .bound ∨ st = .ended ∨ st = .tripped →
      (lineIn st).cycle = .idle ∧ (lineIn st).busy (.line 2) = false ∧ (lineIn st).room 3 ∧
      ((lineIn st).line 2).state = st ∧ ((lineIn st).line 2).stage = some 3 ∧
      (lineIn st).bindingOf 3 = some ⟨2, .bound⟩) ∧
    (copying 5).cycle = .idle ∧ (copying 5).busy (.line 2) = false ∧ (copying 5).room 3 ∧
    ((copying 5).line 2).state = .binding ∧ ((copying 5).line 2).stage = some 3 ∧
    (copying 5).bindingOf 3 = some ⟨2, .binding⟩ ∧ (copying 5).port = .free ∧
    ({ copying 5 with port := .reading 7 false } : State).jobs = .bindCopy 2 3 1 5 :: [] ∧
    (∀ a ∈ ((lineIn .ended).link 2).arrivals, a.input ≠ .stop) ∧
    ∃ a ∈ ((withLine (lineAs .ended) { linkUp with arrivals := [⟨.stop, false⟩] } .bound).link 2).arrivals,
      a.input = .stop := by
  refine ⟨?_, by decide⟩
  rintro st (rfl | rfl | rfl) <;> decide

/-- R87: RELEASE of an ended line waits for the taking of its STOP, and is then taken. -/
theorem test_release_waits_for_the_stop :
    let s := withLine (lineAs .ended) { linkUp with arrivals := [⟨.stop, false⟩] } .bound
    ∃ t u v, exec (.release 2 0) s = .next t ∧ t.cycle = .held (fullWrite 0xFF980 0x0600) ∧
      exec (.stopRequest 2) t = .next u ∧ exec (.release 2 0) u = .next v ∧ (v.line 2).state = .vacant :=
  ⟨_, _, _, rfl, rfl, rfl, rfl, rfl⟩

theorem witness_ResyncAndRearmAskTheController :
    running.cycle = .idle ∧ running.busy (.line 2) = false ∧ running.room 1 ∧ running.config.enabled 2 = true ∧
    State.cleared.cycle = .idle ∧ State.cleared.room 1 ∧ State.cleared.config.enabled 2 = false := by decide

theorem witness_ADeclinedLineCommandOnlyPostsItsOutcome :
    declined (lineIn .bound) 2 (.bind 2 3) = some (1, 3, 3) ∧ declined State.cleared 2 (.bind 2 3) = some (1, 3, 4) ∧
    declined { running with config := { running.config with load := .loading } } 2 (.bind 2 3) = some (1, 3, 8) ∧
    declined { running with config := { running.config with image := some (image.set 8 0xFFFF) } } 2 (.bind 2 3) =
      some (1, 3, 5) ∧
    declined running 2 (.bind 2 64) = some (1, 64, 6) ∧ declined (lineIn .bound) 1 (.bind 1 3) = some (1, 3, 7) ∧
    declined (lineIn .holding) 2 (.start 2 0) = some (2, 0, 3) ∧
    declined (withLine { lineAs .bound with linkCopy := .lost } linkUp .bound) 2 (.start 2 0) = some (2, 0, 9) ∧
    declined { lineIn .bound with alert := {} } 2 (.start 2 0) = some (2, 0, 10) ∧
    declined (withLine { lineAs .bound with flags := 2 } linkUp .bound) 2 (.start 2 0) = some (2, 0, 11) ∧
    declined (lineIn .bound) 2 (.hold 2 0) = some (3, 0, 3) ∧ declined (lineIn .bound) 2 (.resume 2 0) = some (4, 0, 3) ∧
    declined (lineIn .ended) 2 (.endStage 2 0) = some (5, 0, 3) ∧
    declined (lineIn .holding) 2 (.release 2 0) = some (6, 0, 3) := by
  refine ⟨?_, ?_, ?_, ?_, ?_, ?_, ?_, ?_, ?_, ?_, ?_, ?_, ?_, ?_⟩ <;> decide

theorem witness_FlowTargetAndCeilingRequestAreClampedAndTaken :
    ((lineIn .bound).cycle = .idle ∧ (lineIn .bound).busy (.line 2) = false ∧ (lineIn .bound).room 1 ∧
      ((lineIn .bound).line 2).state = .bound ∧ ((lineIn .injecting).line 2).state = .injecting) ∧
    (39 : Word) < ((lineIn .injecting).line 2).admitted ∧ ((lineIn .injecting).line 2).admitted ≤ (40 : Word) ∧
    ((lineIn .injecting).line 2).admitted ≤ ((lineIn .injecting).line 2).stageWord 8 := by decide

theorem witness_AMixStepIsAdmittedInOrder :
    (lineIn .injecting).cycle = .idle ∧ (lineIn .injecting).busy (.line 2) = false ∧
    ((lineIn .injecting).line 2).state = .injecting ∧ (0 : Word) = ((lineIn .injecting).line 2).mixIndex ∧
    (1 : Word).toNat = ((lineIn .injecting).line 2).mixIndex.toNat + 1 ∧
    (1 : Word).toNat < (((lineIn .injecting).line 2).stageWord 23).toNat ∧
    (((lineIn .injecting).line 2).stepVolume ((lineIn .injecting).line 2).mixIndex).toNat ≤
      (((lineIn .injecting).line 2).take - ((lineIn .injecting).line 2).takeAtStep).toNat := by decide

theorem witness_ASetpointOutOfPlaceIsAnsweredAsRefused :
    (lineIn .ended).cycle = .idle ∧ (lineIn .ended).busy (.line 2) = false ∧ (lineIn .ended).room 3 ∧
    ((lineIn .ended).line 2).state.admits = false ∧ ((lineIn .bound).line 2).state.admits = true ∧
    (1 : Word) ≠ ((lineIn .bound).line 2).mixIndex ∧
    (((lineIn .injecting).line 2).stageWord 23).toNat ≤ (2 : Word).toNat := by decide

theorem witness_AConsumerWriteIsCheckedAgainstTheRing :
    running.cycle = .idle ∧ running.room 3 ∧ running.report.ring = some ⟨0x10000, 64⟩ ∧
    running.report.consumer < 64 ∧ running.report.producer < 64 ∧ running.report.placement = false ∧
    queued running.queue (statusAddr 5) = false ∧
    (∀ v : Word, v = 3 ∨ v = 5 → v.toNat < 64 ∧
      (v.toNat + 64 - running.report.consumer) % 64 ≤ (running.report.producer + 64 - running.report.consumer) % 64) ∧
    (∀ v : Word, v = 2 ∨ v = 6 →
      (running.report.producer + 64 - running.report.consumer) % 64 < (v.toNat + 64 - running.report.consumer) % 64) ∧
    64 ≤ (64 : Word).toNat ∧ State.cleared.report.ring = none := by
  refine ⟨rfl, by decide, rfl, by decide, by decide, rfl, rfl, ?_, ?_, by decide, rfl⟩ <;>
    rintro v (rfl | rfl) <;> decide

/-- Line 2 at the end of its copy, with the event of a tag sent to it. -/
def copied (f : Filling) (tag : Byte) : State :=
  withLine { state := .binding, stage := some 3, copyTag := 1, filling := some f, mail := { jobDone := [tag] } }
    linkUp .binding

theorem witness_TheEndOfACopyBindsOrFreesTheLine :
    (copied filling 1).busy (.line 2) = false ∧ (copied filling 1).room 2 ∧ (copied filling 1).cycle = .idle ∧
    ((copied filling 1).line 2).mail.jobDone = [1] ∧
    ((copied filling 1).line 2).state = .binding ∧ (1 : Byte) = ((copied filling 1).line 2).copyTag ∧
    ((copied filling 1).line 2).stage = some 3 ∧ ((copied filling 1).line 2).filling = some filling ∧
    (copied filling 1).bindingOf 3 = some ⟨2, .binding⟩ ∧ validateCopy 3 filling = none ∧
    (∃ e, validateCopy 3 { filling with check := 0 } = some e) ∧ (validateCopy 5 filling).isSome = true ∧
    (2 : Byte) ≠ ((copied filling 2).line 2).copyTag := by
  refine ⟨rfl, by decide, rfl, rfl, rfl, rfl, rfl, rfl, rfl, by decide, ⟨_, rfl⟩, by decide, by decide⟩

/-- The words of a copy as numbers. -/
def numbers (f : Filling) (k : Nat) : Nat := (f.words.toList.getD k 0).toNat

/-- The copy with word k changed and its check word put right. -/
def altered (k : Nat) (v : Word) : Filling :=
  { words := copy.setIfInBounds k v, check := 0 - checkSum (copy.setIfInBounds k v).toList }

theorem witness_a_word_of_a_record_fails :
    (∀ k, k < 38 → recordWordHolds 3 (numbers filling) k) ∧ (altered 2 100).sum = 0 ∧
    ¬ recordWordHolds 3 (numbers (altered 2 100)) 2 ∧ recordWordHolds 3 (numbers (altered 2 101)) 2 ∧
    ¬ recordWordHolds 3 (numbers (altered 11 62)) 10 ∧ ¬ recordWordHolds 3 (numbers (altered 19 3)) 19 ∧
    ¬ recordWordHolds 3 (numbers (altered 24 0x0100)) 24 ∧ ¬ recordWordHolds 3 (numbers (altered 37 61)) 37 ∧
    (altered 11 62).sum = 0 ∧ ({ filling with check := 0 } : Filling).sum ≠ 0 := by
  refine ⟨fun k hk => (fieldOk_iff _ _ k hk).mp ?_, by decide, ?_, ?_, ?_, ?_, ?_, ?_, by decide, by decide⟩
  · revert k; decide
  all_goals rw [← fieldOk_iff _ _ _ (by decide)]; decide

theorem witness_samples_are_ready (st : LineState) (x : Sample) : sampleReady (sampling st x) 2 x [] :=
  ⟨rfl, rfl, rfl, nofun, nofun⟩

theorem witness_ASampleOutsideAnOpenStageIsPosted :
    (sampling .ended sampleA).room 12 ∧
    ((sampling .ended { sampleA with seq := 9 }).line 2).lastSampleSeq = some 9 ∧
    ((sampling .ended sampleA).line 2).lastSampleSeq ≠ some sampleA.seq ∧
    ((sampling .vacant sampleA).line 2).state = .vacant ∧ ((sampling .ended sampleA).line 2).state = .ended := by
  decide

/-- Line 2 in a state that is settling where it is idle, last sent a ceiling, and with a meter baseline. -/
def metered (st : LineState) (sent : Word) (baseline : Option Word) : State :=
  withLine { lineAs st with lastSentCeiling := sent, meterBaseline := baseline, settle := .running 5 }
    { linkUp with fifo := [sampleA] } .bound

/-- Line 2 after the accounting of the sample. -/
def accounted (st : LineState) (sent : Word) : Line :=
  ({ afterStep1 ((metered st sent (some 1000)).line 2) sampleA with meterBaseline := some 1040 } : Line).addVolume 40

/-- The line with the sample's pair in its window. -/
def windowed (l : Line) : Line :=
  { l with window := (l.window ++ [(sampleA.pressure, sampleA.flow)]).drop (l.window.length + 1 - 8) }

theorem witness_ASampleWhileInjectingIsAccounted :
    (sampleA.meter - 1000 ≤ ((metered .injecting 0 none).line 2).stageWord 17 ∧
      ((metered .injecting 0 none).line 2).stageWord 17 < sampleA.meter - 539) ∧
    (metered .closing 0 none).room 13 ∧ ((metered .injecting 0 none).line 2).lastSampleSeq ≠ some sampleA.seq ∧
    (accounted .injecting 1510).volume ≠ ((metered .injecting 0 none).line 2).volume ∧
    (accounted .injecting 1510).effectiveCeiling.toNat + 10 ≤ (1510 : Word).toNat ∧
    ¬ ((accounted .injecting 1509).effectiveCeiling.toNat + 10 ≤ (1509 : Word).toNat) ∧
    tripCheck (windowed (accounted .injecting 1510)) sampleA = none ∧ holdCheck (windowed (accounted .injecting 1510)) = none ∧
    (accounted .injecting 1510).take < (accounted .injecting 1510).stageWord 12 ∧
    (accounted .injecting 1510).stageWord 5 ≤ (accounted .injecting 1510).intensityCeiling ∧
    ¬ ((accounted .injecting 1510).stageWord 5 ≤ sampleA.pressure ∧ sampleA.flow ≤ (accounted .injecting 1510).stageWord 6) ∧
    ((accounted .closing 1510).stageWord 5 ≤ (1500 : Word) ∧ (20 : Word) ≤ (accounted .closing 1510).stageWord 6) ∧
    (accounted .bound 0).settle ≠ .stopped ∧ tripCheck (accounted .bound 0) sampleA = none := by decide +kernel

theorem witness_metered_samples_are_ready (st : LineState) (sent : Word) (b : Option Word) :
    sampleReady (metered st sent b) 2 sampleA [] :=
  ⟨rfl, rfl, rfl, nofun, nofun⟩

/-- Line 2 in a state with no meter baseline, and a sample of high pressure. -/
def overpressed (st : LineState) : State :=
  withLine { lineAs st with meterBaseline := none } { linkUp with fifo := [{ sampleA with pressure := 2201 }] } .bound

/-- The same with a meter baseline. -/
def overpressedAt (st : LineState) (baseline : Word) : State :=
  withLine { lineAs st with meterBaseline := some baseline } { linkUp with fifo := [{ sampleA with pressure := 2201 }] }
    .bound

theorem witness_an_overpressed_line_is_accounted :
    sampleReady (overpressedAt .holding 1000) 2 { sampleA with pressure := 2201 } [] ∧
    (∃ l, accountedAs 2 ((overpressed .bound).line 2) { sampleA with pressure := 2201 } l [] []) ∧
    (∃ l, accountedAs 2 ((overpressedAt .holding 1000).line 2) { sampleA with pressure := 2201 } l [] []) ∧
    ∃ l r, accountedAs 2 ((overpressedAt .bound 539).line 2) { sampleA with pressure := 2201 } l [r] [] :=
  ⟨⟨rfl, rfl, rfl, nofun, nofun⟩, ⟨_, .inl ⟨rfl, rfl, rfl, rfl⟩⟩,
    ⟨_, .inr (.inr ⟨1000, rfl, by decide, rfl, rfl, by decide⟩)⟩,
    ⟨_, _, .inr (.inl ⟨539, rfl, by decide, rfl, rfl, rfl⟩)⟩⟩

theorem witness_AnOverpressureTripsAnIdleLine :
    sampleReady (overpressed .bound) 2 { sampleA with pressure := 2201 } [] ∧ (overpressed .bound).room 14 ∧
    ((overpressed .bound).line 2).lastSampleSeq ≠ some sampleA.seq ∧
    ((overpressed .bound).line 2).state = .bound ∧ ((overpressed .holding).line 2).state = .holding ∧
    ((overpressed .bound).line 2).meterBaseline = none ∧
    (((overpressed .bound).line 2).stageWord 3).toNat + (((overpressed .bound).line 2).stageWord 4).toNat <
      (2201 : Word).toNat :=
  ⟨⟨rfl, rfl, rfl, nofun, nofun⟩, by decide⟩

theorem witness_TheChecksOfASampleDecideInOrder :
    let l := lineAs .injecting
    (l.stageWord 3).toNat + (l.stageWord 4).toNat < (2201 : Word).toNat ∧
    (2200 : Word).toNat ≤ (l.stageWord 3).toNat + (l.stageWord 4).toNat ∧
    (l.stageWord 36).getLsbD 0 = true ∧ l.stageWord 15 < (101 : Word) ∧ sampleA.uplift ≤ l.stageWord 15 ∧
    l.state.flowing = true ∧
    pressureBreak { l with window := [(1000, 100), (1000, 100), (1000, 100), (100, 200)] }
      { sampleA with pressure := 100, flow := 200 } = true ∧ pressureBreak l sampleA = false := by decide

/-- A sample of high pressure in CLOSING: the trip's posts follow the thirteen measurement words in 15 places. -/
theorem witness_a_flowing_line_trips :
    let s := withLine { lineAs .closing with meterBaseline := none, dwell := .running 4001 }
      { linkUp with fifo := [{ sampleA with pressure := 2201 }] } .bound
    s.room 15 ∧ sampleReady s 2 { sampleA with pressure := 2201 } [] ∧ (s.line 2).lastSampleSeq ≠ some 10 ∧
    (s.line 2).state.flowing = true ∧
    (∃ l, accountedAs 2 (s.line 2) { sampleA with pressure := 2201 } l [] []) ∧
    ∃ t, exec (.sample 2) s = .next t ∧ (t.line 2).state = .tripped ∧ t.queue.length = 15 ∧ t.waiting = [] :=
  ⟨by decide, ⟨rfl, rfl, rfl, nofun, nofun⟩, by decide, rfl, ⟨_, .inl ⟨rfl, rfl, rfl, rfl⟩⟩, ⟨_, rfl, by decide⟩⟩

/-- R114: of two pairs of the highest pressure the one nearest the head is the peak. -/
theorem witness_the_peak_pair :
    let before : List (Word × Word) := [(999, 10)]
    let after : List (Word × Word) := [(1000, 400), (500, 200)]
    (before.all fun q => q.1 < 1000) = true ∧ (after.all fun q => q.1 ≤ 1000) = true ∧
    tripCheck { lineAs .injecting with window := before ++ (1000, 100) :: after }
        { sampleA with pressure := 500, flow := 200 } =
      some (.pressureBreak, longOf 500 200, longOf 1000 100) ∧
    tripCheck { lineAs .bound with window := before ++ (1000, 100) :: after }
        { sampleA with pressure := 500, flow := 200 } = none := by decide

/-- Line 2 in a state with its window, at a take and an intensity ceiling. -/
def checked (st : LineState) (take ceiling : Word) : Line :=
  { lineAs st with take := take, intensityCeiling := ceiling, window := [(1000, 100), (sampleA.pressure, sampleA.flow)] }

theorem witness_the_flowing_checks :
    (∃ r, tripCheck (checked .closing 10 1800) { sampleA with pressure := 2201 } = some r) ∧
    tripCheck (checked .closing 10 1800) sampleA = none ∧ holdCheck { checked .closing 10 1800 with flags := 8 } = some .packerLeak ∧
    holdCheck (checked .closing 10 1800) = none ∧
    ((checked .closing 200 1800).stageWord 12 ≤ (checked .closing 200 1800).take) ∧
    (checked .closing 199 1499).take < (checked .closing 199 1499).stageWord 12 ∧
    (checked .closing 199 1499).intensityCeiling < (checked .closing 199 1499).stageWord 5 ∧
    (checked .closing 199 1500).stageWord 5 ≤ (checked .closing 199 1500).intensityCeiling ∧
    ((checked .closing 199 1500).stageWord 5 ≤ (1500 : Word) ∧ (20 : Word) ≤ (checked .closing 199 1500).stageWord 6) ∧
    ¬ ((checked .closing 199 1500).stageWord 5 ≤ (1500 : Word) ∧ (21 : Word) ≤ (checked .closing 199 1500).stageWord 6) := by
  refine ⟨⟨_, rfl⟩, ?_, ?_, ?_, ?_, ?_, ?_, ?_, ?_, ?_⟩ <;> decide

theorem witness_the_idle_checks :
    let l := { lineAs .bound with baseline := some 900 }
    tripCheck l sampleA = none ∧ l.stage = some 3 ∧ l.settle = .stopped ∧ l.riseFlag = false ∧
    (900 : Word).toNat + (l.stageWord 16).toNat ≤ sampleA.pressure.toNat ∧
    (999 : Word).toNat < (900 : Word).toNat + (l.stageWord 16).toNat ∧
    ({ l with settle := .running 5 } : Line).settle ≠ .stopped := by decide

theorem witness_a_sample_after_an_overrun :
    let s := withLine (lineAs .ended) { linkUp with fifo := [{ sampleA with seq := 9 }], overrun := some 2 } .bound
    s.busy (.line 2) = false ∧ (s.link 2).fifo = [{ sampleA with seq := 9 }] ∧ (s.link 2).overrun = some 2 ∧
    (∀ a ∈ (s.link 2).arrivals, a.input ≠ .restart) ∧ (s.line 2).lastSampleSeq = some 9 := by decide

theorem witness_TheTimersOfALineExpire :
    ((withLine { lineAs .injecting with ramp := .running 0 } linkUp .bound).line 2).ramp = .running 0 ∧
    (90 : Word).toNat = min (((lineIn .injecting).line 2).admitted.toNat + (((lineIn .injecting).line 2).stageWord 9).toNat)
      ((lineIn .injecting).line 2).flowTarget.toNat ∧
    ((withLine { lineAs .closing with dwell := .running 0 } linkUp .bound).line 2).dwell = .running 0 ∧
    ((withLine { lineAs .holding with settle := .running 0 } linkUp .bound).line 2).settle = .running 0 ∧
    (lineIn .closing).room 4 := by decide

theorem witness_a_ramp_post_waits :
    let s := stalled { lineAs .injecting with ramp := .running 0 } linkUp { block := .report, post := ⟨0xFF852, 0⟩ }
    s.busy (.line 2) = false ∧ s.queue.length = 16 ∧ queued s.queue (lineAddr 2 15) = false ∧
    (s.line 2).ramp = .running 0 := by decide

theorem witness_LinkAndPlantEventsTripAFlowingLine :
    (mailed .closing { linkEvents := [.stateChange .lost] }).busy (.line 2) = false ∧
    (mailed .closing { linkEvents := [.stateChange .lost] }).room 4 ∧
    ((mailed .closing { linkEvents := [.stateChange .lost] }).line 2).mail.linkEvents = [.stateChange .lost] ∧
    ((mailed .closing {}).line 2).state.flowing = true ∧ ((mailed .bound {}).line 2).state.flowing = false ∧
    ((mailed .closing { linkEvents := [.unanswered 2] }).line 2).mail.linkEvents = [.unanswered 2] ∧
    ((mailed .closing { linkEvents := [.unanswered 1] }).line 2).mail.linkEvents = [.unanswered 1] ∧
    ((mailed .closing { plantStops := [.stopAll] }).line 2).mail.plantStops = [.stopAll] := by decide

theorem witness_LocalRefusalAndDemandHoldAFlowingLine :
    (mailed .closing { linkEvents := [.refusedLocal 7] }).busy (.line 2) = false ∧
    ((mailed .closing { linkEvents := [.refusedLocal 7] }).line 2).mail.linkEvents = [.refusedLocal 7] ∧
    ((mailed .injecting { demands := [⟨1, 5, true, 900, 400⟩] }).line 2).mail.demands = [⟨1, 5, true, 900, 400⟩] ∧
    ((mailed .injecting {}).line 2).state.flowing = true ∧ ((mailed .ended {}).line 2).state.flowing = false := by
  decide

theorem witness_AnObservationDemandsHoldsOfQualifyingLines :
    ({ lineIn .injecting with observations := [⟨1, 5, false, 900, 400⟩] } : State).observations =
      [] ++ ⟨1, 5, false, 900, 400⟩ :: [] ∧
    (∀ p ∈ ([⟨0, 4, true, 900, 400⟩] : List Observation), p.line ≠ 1) ∧
    ((lineIn .injecting).line 2).qualifies 5 = true ∧ ((lineIn .injecting).line 2).qualifies 4 = false := by decide

theorem witness_TheReceiverWatchesItsClockAndFindsFrames :
    (∃ k : Link, k.watch = .present ∧ k.watchExpiry = some 4990) ∧ linkUp.watch ≠ .stopped ∧
    linkUp.receiver = .hunting ∧ linkUp.watch = .present ∧
    (([false, false, false, false, true, false, true, true] : List Bool) ++ [false]).drop 1 =
      charBits (lowByte (running.config.word 2)) ∧
    (∃ k : Link, k.receiver = .sync1) ∧ (∃ k : Link, k.receiver = .between) ∧
    (0x16 : Byte) = lowByte (running.config.word 2) ∧ (0x5A : Byte) ≠ lowByte (running.config.word 2) ∧
    (0x41 : Byte) ≠ lowByte (running.config.word 2) :=
  ⟨⟨{ linkUp with watchTimer := .stopped, watchExpiry := some 4990 }, rfl, rfl⟩, by decide, rfl, rfl, by decide, ⟨{ linkUp with receiver := .sync1 }, rfl⟩,
    ⟨{ linkUp with receiver := .between }, rfl⟩, by decide, by decide, by decide⟩

/-- R133: the report of a missing clock carries the time of the expiry, not that of its taking. -/
theorem test_clock_missing_keeps_its_time :
    ((lineIn .bound).tick.link 2).watchExpiry = some 5001 ∧
    ∃ t, exec (.clockMissing 2)
        (withLine (lineAs .bound) { linkUp with watchTimer := .stopped, watchExpiry := some 4990 } .bound) = .next t ∧
      t.report.handed.map Report.time = [4990] :=
  ⟨by decide +kernel, ⟨_, rfl, by decide⟩⟩

/-- A SAMPLE frame from its kind to its payload's end, and an ANSWER frame. -/
def sampleBody : List Byte := [0x5A, 10, 3, 0xE8, 0, 90, 4, 16, 0, 10, 0]
def answerBody : List Byte := [0x3C, 5, 4, 0]

/-- Line 2's link with a frame in assembly. -/
def assembling (frame : List Byte) : State :=
  withLine (lineAs .injecting) { linkUp with receiver := .frame, assembly := frame } .bound

theorem witness_FramesAreAssembledAndJudgedByTheirCrc :
    ((assembling [0x5A]).link 2).receiver = .frame ∧ ((assembling [0x5A]).link 2).assembly.head? = some 0x5A ∧
    ((assembling [0x3C]).link 2).assembly.head? = some 0x3C ∧
    (sampleBody ++ [highByte (crc sampleBody)] ++ [lowByte (crc sampleBody)]).length = 13 ∧
    (answerBody ++ [highByte (crc answerBody)] ++ [lowByte (crc answerBody)]).length = 6 ∧
    wordOf 0 0 ≠ crc sampleBody ∧ wordOf 0 0 ≠ crc answerBody := by decide +kernel

/-- The controller of link 2 is to take its one event next. -/
theorem witness_links_have_turns (k : Link) (e : LinkInput) : linkTurn (linkWith k e) 2 e [] := by
  refine ⟨rfl, ?_, nofun⟩
  cases e <;> rfl

theorem witness_ASampleIsJudgedAtTheLink :
    (linkWith linkUp (.judge sampleA)).room 2 ∧
    ((linkWith { linkUp with state := .off } (.judge sampleA)).link 2).state = .off ∧
    ((linkWith { linkUp with state := .lost, latchOpen := true } (.judge sampleA)).link 2).state = .lost ∧
    ({ linkUp with state := .lost, latchOpen := true } : Link).latchOpen = true ∧
    (sampleA.flags.setWidth 4 : BitVec 4) ≠ linkUp.latchedFlags := by decide

theorem witness_FramesAreBuiltFromTheSupervisor :
    ((lineIn .injecting).line 2).copy ≠ none ∧ ((lineIn .injecting).line 3).copy = none := by decide

theorem witness_RequestsAndStopsReachTheWire :
    (linkWith linkUp (.request .mix)).room 2 ∧ linkUp.state ≠ .off ∧ linkUp.wire = .fill ∧ linkUp.inFlight = none ∧
    linkUp.stopWaiting = false ∧ linkUp.pending ++ [RequestKind.mix] = .mix :: [] ∧
    ({ linkUp with inFlight := some ⟨.mix, 3, true⟩ } : Link).inFlight ≠ none ∧
    ({ linkUp with wire := .quiet } : Link).wire ≠ .fill := by decide

/-- Line 2's link with a frame of a kind on its wire. -/
def sendingFrame (kind : FrameKind) (k : Link) : State :=
  withLine (lineAs .injecting) { k with wire := .sending kind [] } .bound

theorem witness_TheEndOfAFrameFreesTheWire :
    ((sendingFrame .refresh linkUp).link 2).wire = .sending .refresh [] ∧
    (sendingFrame .refresh linkUp).busy (.link 2) = false ∧ (sendingFrame .refresh linkUp).room 2 ∧
    (sendingFrame .refresh linkUp).noOwn 2 ∧ (sendingFrame .refresh linkUp).noneWaited 2 ∧
    ((sendingFrame .refresh { linkUp with stopWaiting := true }).link 2).stopWaiting = true ∧
    (((sendingFrame .refresh { linkUp with pending := [.mix] }).link 2).stopWaiting = false ∧
      ((sendingFrame .refresh { linkUp with pending := [.mix] }).link 2).pending = .mix :: [] ∧
      ((sendingFrame .refresh { linkUp with pending := [.mix] }).link 2).inFlight = none) ∧
    (((sendingFrame (.command .mix) { linkUp with refreshOwed := true }).link 2).stopWaiting = false ∧
      ((sendingFrame (.command .mix) { linkUp with refreshOwed := true }).link 2).pending = [] ∧
      ((sendingFrame (.command .mix) { linkUp with refreshOwed := true }).link 2).refreshOwed = true) :=
  ⟨rfl, rfl, by decide, nofun, nofun, by decide⟩

/-- A link with a command AWAITING, and a request pending. -/
def awaiting : Link :=
  { linkUp with inFlight := some ⟨.setpoint, 3, true⟩, answerTimer := .running 9, pending := [.mix] }

theorem witness_the_next_event_of_a_controller :
    ({ linkUp with arrivals := [⟨.stop, true⟩, ⟨.answer 3 0, false⟩] } : Link).nextInput .receiver = none ∧
    ({ linkUp with arrivals := [⟨.stop, true⟩, ⟨.answer 3 0, false⟩] } : Link).nextInput .supervisor =
      some (.stop, [⟨.answer 3 0, false⟩]) ∧
    ({ linkUp with arrivals := [⟨.stop, false⟩, ⟨.answer 3 0, false⟩] } : Link).nextInput .receiver =
      some (.answer 3 0, [⟨.stop, false⟩]) ∧
    ({ linkUp with arrivals := [⟨.stop, false⟩] } : Link).nextInput .receiver = none := by decide

theorem witness_AnAnswerOrItsTimeoutEndsTheCommand :
    (linkWith awaiting (.answer 3 0)).room 3 ∧ awaiting.inFlight = some ⟨.setpoint, 3, true⟩ ∧
    awaiting.pending = .mix :: [] ∧ awaiting.wire = .fill ∧ awaiting.stopWaiting = false ∧
    ({ awaiting with pending := [] } : Link).pending = [] ∧ 2 ≤ (2 : Byte).toNat ∧
    (∀ c, awaiting.inFlight = some c → c.awaiting = false ∨ c.seq ≠ 4) ∧
    ∀ c, linkUp.inFlight = some c → c.awaiting = false := by
  refine ⟨by decide, rfl, rfl, rfl, rfl, rfl, by decide, ?_, nofun⟩
  intro c hc
  right
  cases hc
  decide

theorem witness_RestartsRearmsAndTimersOfALink :
    linkUp.flagsSeen = linkUp.latchedFlags ∧ ({ linkUp with flagsSeen := 1 } : Link).flagsSeen ≠ linkUp.latchedFlags ∧
    linkUp.wire = .fill ∧ linkUp.pending = [] ∧ linkUp.stopWaiting = false ∧ awaiting.pending ≠ [] ∧
    linkUp.state = .up ∧ ({ linkUp with state := .lost } : Link).state ≠ .up := by decide

/-- A report of a kind. -/
def reportOf (k : ReportKind) : Report := { kind := k, time := 4000 }

/-- The Report Writer with these reports pending and one handed over. -/
def writing (pending : List Report) (r : Report) : State :=
  { running with report := { running.report with pending := pending, handed := [r], lost := true } }

theorem witness_AReportIsKeptOrLost :
    (writing [] (reportOf .trip)).report.handed = [reportOf .trip] ∧
    (List.replicate 7 (reportOf .flags)).length < 8 ∧ (List.replicate 8 (reportOf .flags)).length = 8 ∧
    (∀ x ∈ List.replicate 8 (reportOf .trip), x.kind = .trip) ∧
    List.replicate 8 (reportOf .flags) = List.replicate 7 (reportOf .flags) ++ reportOf .flags :: [] ∧
    (reportOf .flags).kind ≠ .trip := by decide

theorem witness_TheRingTakesRecordsAndIsPlaced :
    (writing [reportOf .trip] (reportOf .flags)).busy .report = false ∧
    (writing [reportOf .trip] (reportOf .flags)).report.inFlight = none ∧
    (writing [reportOf .trip] (reportOf .flags)).report.ring = some ⟨0x10000, 64⟩ ∧
    (writing [reportOf .trip] (reportOf .flags)).room 9 ∧ (5 + 1) % 64 ≠ 3 ∧ (2 + 1) % 64 = 3 ∧ (63 + 1) % 64 = 0 ∧
    ({ running with report := { running.report with placement := true } } : State).report.placement = true ∧
    (∀ r ∈ running.report.handed, r.kind ≠ .configLoaded) ∧
    ∃ r ∈ (writing [] (reportOf .configLoaded)).report.handed, r.kind = .configLoaded := by
  decide

theorem witness_LoadConfigStartsALoad :
    running.cycle = .idle ∧ running.busy .config = false ∧ (∀ n, ∀ a ∈ (running.link n).arrivals, a.input.source ≠ .own) ∧
    running.room 2 ∧ running.config.load ≠ .loading ∧ running.report.placement = false ∧
    (loading 0 image).config.load = .loading := by decide

/-- The end of a load of an image. -/
def loaded (i : Vector Word 12) : State :=
  { running with config := { image := some image, load := .loading, loadImage := some i, jobDone := 1 } }

theorem witness_ALoadIsRejectedOrAccepted :
    (loaded image).busy .config = false ∧ (loaded image).room 2 ∧ (loaded image).config.jobDone = 0 + 1 ∧
    (loaded image).config.loadImage = some image ∧ (loaded image).loadFailure image = none ∧
    (loaded (image.set 6 0)).loadFailure (image.set 6 0) = some ⟨11, 1, 0xFFE2⟩ := by decide

/-- The image with a word changed and its check word put right. -/
def imageWith (k : Nat) (v : Word) : Vector Word 12 :=
  (image.setIfInBounds k v).set 11 (0 - checkSum ((image.setIfInBounds k v).toList.take 11))

theorem witness_the_checks_of_a_load :
    (∀ j : Fin 12, configWordHolds j.val image[j]) ∧ checkSum (imageWith 2 0x165A).toList = 0 ∧
    ¬ configWordHolds 2 (imageWith 2 0x165A)[2] ∧ ¬ configWordHolds 10 (imageWith 10 257)[10] ∧
    0xFF800 < (imageWith 9 0xFF79)[9].toNat * 16 + (imageWith 9 0xFF79)[10].toNat * 16 ∧
    configWordHolds 9 (imageWith 9 0xFF79)[9] ∧ areasMeet (imageWith 9 0x417F) ∧ ¬ areasMeet (imageWith 9 0x4180) ∧
    inUse (lineIn .binding) 2 ∧ ¬ inUse running 2 ∧ inUse (withLine {} { linkUp with stopWaiting := true } .bound) 2 ∧
    inUse (withLine {} { linkUp with inFlight := some ⟨.stop, 3, false⟩ } .bound) 2 ∧
    (imageWith 1 2)[1] ≠ running.config.word 1 ∧ lowByte (imageWith 2 0x17)[2] ≠ lowByte (running.config.word 2) ∧
    (imageWith 8 0x81)[8] ≠ running.config.word 8 ∧ (imageWith 0 0xFB)[0].getLsbD 2 ≠ running.config.enabled 2 := by
  refine ⟨by decide, by decide, by decide, by decide, by decide, by decide, ⟨by decide, 0x417F0, by decide⟩, ?_,
    .inl (by decide), ?_, .inr (.inl rfl), .inr (.inr ⟨_, rfl, rfl⟩), by decide, by decide, by decide, by decide⟩
  · rintro ⟨-, a, h1, h2, h3, h4⟩
    have e8 : (imageWith 9 0x4180)[8].toNat = 0x80 := rfl
    have e9 : (imageWith 9 0x4180)[9].toNat = 0x4180 := rfl
    omega
  · rintro (h | h | ⟨c, h, -⟩)
    · exact h rfl
    · cases h
    · cases h

theorem witness_ANoticeTurnsALinkOnOrOff :
    (linkWith linkUp .notice).busy (.link 2) = false ∧ ((linkWith linkUp .notice).link 2).arrivals = [] ++ [⟨.notice, false⟩] ∧
    (linkWith linkUp .notice).room 3 ∧ (linkWith linkUp .notice).config.enabled 2 = true ∧
    ({ linkWith linkUp .notice with config := {} } : State).config.enabled 2 = false ∧ linkUp.state ≠ .off := by decide

theorem witness_TheInvariantsAndTheirSteps :
    Canonical State.reset ∧ QueueSound State.reset ∧ ListsSound State.reset ∧
    (∃ t, step { State.reset with pending := [.insertQueueDrain] } = .next t) ∧ (∃ t, step State.reset = .next t) := by
  refine ⟨rfl, by unfold QueueSound; decide, by unfold ListsSound; decide, ⟨_, rfl⟩, ⟨_, rfl⟩⟩

theorem witness_TheLinesAndTheTableAtReset : Corresponds State.reset ∧ LinesSound State.reset := by
  constructor
  · intro n
    refine ⟨by revert n; decide, ?_⟩
    intro st ph
    cases ph <;> revert n st <;> decide
  · intro n
    unfold LineSound
    revert n
    decide

theorem witness_PlantStopIsReleasedOnlyOnItsConditions :
    PlantHeld State.cleared ∧ (stopped (some .stopAll)).alert.plantStop ≠ none ∧
    ∃ t, exec (.releaseStop 0) (stopped (some .stopAll)) = .next t ∧ t.alert.plantStop = none :=
  ⟨fun _ => ⟨nofun, rfl, nofun⟩, by decide, ⟨_, rfl, rfl⟩⟩

theorem witness_TheHostWritesOnlyWhatItMay :
    HostSound { lineIn .bound with cycle := .write ⟨0x40120, 5, .both⟩, oldRing := some ⟨0x20000, 16⟩ } ∧
    (∃ t, exec .hostWriteGrant { lineIn .bound with cycle := .write ⟨0x40120, 5, .both⟩ } = .next t) ∧
    (lineIn .bound).stageOf 0x40120 = some 3 ∧ (lineIn .bound).bindingOf 3 ≠ none ∧
    classify (wordAddr 0x40120) = .below := by
  refine ⟨⟨?_, ?_⟩, ⟨_, rfl⟩, by decide, by decide, by decide⟩
  · intro w hw
    cases hw
    decide
  · intro r hr
    cases hr
    decide

theorem witness_ALineInjectsAndIsFreedOnlyByItsCommands :
    (∃ t, exec (.start 2 0) (lineIn .bound) = .next t ∧ (t.line 2).state.flowing = true) ∧
    ((lineIn .bound).line 2).state.flowing = false ∧
    (∃ t, exec (.release 2 0) (lineIn .tripped) = .next t ∧ (t.line 2).state = .vacant) ∧
    ((lineIn .tripped).line 2).state = .tripped :=
  ⟨⟨_, rfl, rfl⟩, rfl, ⟨_, rfl, rfl⟩, rfl⟩

end Sys2Proof.Tests
end

