-- ==== Sys2Proof/Proofs/StageTable.lean ====
section
/-! PROOFS. How an address of the stage table gives its stage and its word (R4). -/

namespace Sys2Proof.Machine

/-- R4: inside the table's extent, the offset divided by 96 is one of the 64 stage numbers, and it is the stage found. -/
theorem State.stageOf_of_mem_table {s : State} {base : Nat} {a : Addr} (hb : s.tableBase = some base)
    (low : base ≤ a.toNat) (high : a.toNat < base + 6144) :
    ∃ st : StageNo, s.stageOf a = some st ∧ st.val = (a.toNat - base) / 96 ∧ (a.toNat - base) / 96 < 64 := by
  have hlt : (a.toNat - base) / 96 < 64 := Nat.div_lt_of_lt_mul (by omega)
  refine ⟨Fin.ofNat 64 ((a.toNat - base) / 96), ?_, Nat.mod_eq_of_lt hlt, hlt⟩
  simp only [State.stageOf, hb]
  exact if_pos ⟨low, high⟩

/-- R4: an address below the base, or at or beyond base + 6144, has no stage. -/
theorem State.stageOf_eq_none_of_outside_table {s : State} {base : Nat} {a : Addr} (hb : s.tableBase = some base)
    (outside : a.toNat < base ∨ base + 6144 ≤ a.toNat) : s.stageOf a = none := by
  simp only [State.stageOf, hb]
  exact if_neg (by omega)

/-- R4: a record has 48 words, being 96 bytes long. -/
theorem recordWord_lt (base : Nat) (a : Addr) : recordWord base a < 48 :=
  Nat.div_lt_of_lt_mul (Nat.mod_lt _ (by decide))

/-- Settles O8: an address inside the extent by the quotient and the remainder, one outside it by the failed test. -/
theorem anAddressGivesItsStageAndWord : Obligations.AnAddressGivesItsStageAndWord := by
  unfold Obligations.AnAddressGivesItsStageAndWord
  intro s base a hb
  constructor
  · intro low high
    exact ⟨State.stageOf_of_mem_table hb low high, rfl, recordWord_lt base a⟩
  · exact State.stageOf_eq_none_of_outside_table hb

end Sys2Proof.Machine
end

