-- ==== Sys2Proof/Proofs/Formats.lean ====
section
/-! PROOFS. The check sum of words and the CRC of a frame (R176, R177), and the tests that use them. -/

namespace Sys2Proof.Machine

/-! ### The check sum -/

/-- R176: adding words one after another, from any value, is one sum reduced at the end. -/
theorem foldl_add_toNat (ws : List Word) (a : Word) :
    (ws.foldl (· + ·) a).toNat = (a.toNat + (ws.map BitVec.toNat).sum) % 65536 := by
  induction ws generalizing a with
  | nil => simpa using (Nat.mod_eq_of_lt a.isLt).symm
  | cons w ws ih =>
    simp only [List.foldl_cons, List.map_cons, List.sum_cons, ih, BitVec.toNat_add]
    omega

theorem checkSum_toNat (ws : List Word) : (checkSum ws).toNat = (ws.map BitVec.toNat).sum % 65536 := by
  simp [checkSum, foldl_add_toNat]

theorem checkSum_concat (ws : List Word) (w : Word) : checkSum (ws ++ [w]) = checkSum ws + w :=
  List.foldl_concat ..

/-- R176: the one check word that makes a check sum 0 is the negated sum of the other words. -/
theorem checkSum_concat_eq_zero_iff (ws : List Word) (check : Word) :
    checkSum (ws ++ [check]) = 0 ↔ check = 0 - checkSum ws := by
  rw [checkSum_concat]
  constructor <;> intro h <;> bv_omega

/-- R171: step 1 of a load passes an image exactly where its check sum is 0. -/
theorem checkFailure_eq_none_iff (i : Vector Word 12) : checkFailure i = none ↔ checkSum i.toList = 0 := by
  simp [checkFailure]

/-- R40: a copy whose check sum is not 0 fails at its check word, whatever its other words hold. -/
theorem validateCopy_of_sum_ne_zero {f : Filling} (st : StageNo) (h : f.sum ≠ 0) :
    validateCopy st f = some ⟨.recordCheck, 47, f.sum.setWidth 32⟩ :=
  if_pos h

/-- R40: a copy whose check sum is 0 can fail only by the condition of a field. -/
theorem reason_of_validateCopy_of_sum_eq_zero {f : Filling} {st : StageNo} {e : CopyFailure} (h : f.sum = 0)
    (he : validateCopy st f = some e) : e.reason = .recordField := by
  rw [validateCopy, if_neg (not_not_intro h), Option.map_eq_some_iff] at he
  obtain ⟨k, -, rfl⟩ := he
  rfl

/-- R40: the reason RECORD CHECK and a check sum that is not 0 go together. -/
theorem sum_ne_zero_iff_recordCheck (st : StageNo) (f : Filling) :
    f.sum ≠ 0 ↔ ∃ e, validateCopy st f = some e ∧ e.reason = .recordCheck := by
  constructor
  · intro h
    exact ⟨_, validateCopy_of_sum_ne_zero st h, rfl⟩
  · rintro ⟨e, he, hreason⟩ hsum
    have hfield := reason_of_validateCopy_of_sum_eq_zero hsum he
    rw [hreason] at hfield
    cases hfield

/-- Settles O51: the sum by induction on the words, its two uses by the tests of a copy and of an image. -/
theorem aCheckSumIsTheSumModulo65536 : Obligations.ACheckSumIsTheSumModulo65536 := by
  unfold Obligations.ACheckSumIsTheSumModulo65536
  exact ⟨checkSum_toNat, fun _ => rfl, sum_ne_zero_iff_recordCheck, checkFailure_eq_none_iff,
    checkSum_concat_eq_zero_iff⟩

/-! ### The frame CRC -/

theorem crc_concat (chars : List Byte) (c : Byte) : crc (chars ++ [c]) = crcChar (crc chars) c :=
  List.foldl_concat ..

/-- R177: a character enters bits 8 to 15 by exclusive-or, and eight steps follow. -/
theorem crcChar_eq_repeat (r : Word) (c : Byte) :
    crcChar r c = Nat.repeat crcShift 8 (r ^^^ (c.setWidth 16 <<< 8)) :=
  rfl

/-- R131, R132: the parts of a sent frame in their order, the CRC over the characters from KIND on. -/
theorem frameChars_eq (sync seq : Byte) (kind : FrameKind) (payload : List Byte) :
    frameChars sync kind seq payload =
      [sync, sync, kind.code, seq] ++ payload ++
        [highByte (crc (kind.code :: seq :: payload)), lowByte (crc (kind.code :: seq :: payload))] := by
  simp [frameChars]

/-- R177's worked value: the CRC of the nine digits. -/
theorem crc_nine_digits : crc [0x31, 0x32, 0x33, 0x34, 0x35, 0x36, 0x37, 0x38, 0x39] = 0x29B1 := by
  decide +kernel

/-- The worked example of chapter 11: the CRC of a STOP frame with sequence 0. -/
theorem crc_stop_frame : crc [0x0F, 0x00] = 0x0D31 := by
  decide +kernel

/-- Settles O52: the register's start, character and step, then the CRC's place in a frame and the two values. -/
theorem theFrameCrcIsComputedByItsRegister : Obligations.TheFrameCrcIsComputedByItsRegister := by
  unfold Obligations.TheFrameCrcIsComputedByItsRegister
  refine ⟨rfl, crc_concat, crcChar_eq_repeat, ?step, frameChars_eq, ?received, crc_nine_digits, crc_stop_frame⟩
  case step => exact fun _ => rfl
  case received => exact fun _ => ⟨rfl, rfl⟩

end Sys2Proof.Machine
end
-- ==== Sys2Proof/Proofs/Addresses.lean ====
section
/-! PROOFS. The addresses of the guard block's words and their classes (R2, 11.2, 11.3), bit 0 of an address, and the line
and stage of an address. -/

namespace Sys2Proof.Machine

/-! ### The words of the status area and of the image blocks -/

@[simp] theorem statusAddr_toNat {k : Nat} (hk : k < 32) : (statusAddr k).toNat = 0xFF840 + 2 * k := by
  rw [statusAddr, BitVec.toNat_ofNat]
  omega

@[simp] theorem lineAddr_toNat (n : LineNo) {w : Nat} (hw : w < 64) :
    (lineAddr n w).toNat = 0xFF880 + 0x80 * n.val + 2 * w := by
  rw [lineAddr, BitVec.toNat_ofNat]
  omega

/-- R2: the class of an address in the status area is that of its word. -/
theorem classify_of_status {a : Addr} (low : 0xFF840 ≤ a.toNat) (high : a.toNat < 0xFF880) :
    classify a = statusClass ((a.toNat - 0xFF840) / 2) := by
  simp only [classify]
  rw [if_neg (by omega), if_neg (by omega), if_pos high]

/-- R2: the class of an address in the image blocks is that of its word of its line. -/
theorem classify_of_block {a : Addr} (low : 0xFF880 ≤ a.toNat) (high : a.toNat < 0xFFC80) :
    classify a = lineClass (Fin.ofNat 8 ((a.toNat - 0xFF880) / 0x80)) ((a.toNat - 0xFF880) % 0x80 / 2) := by
  simp only [classify]
  rw [if_neg (by omega), if_neg (by omega), if_neg (by omega), if_pos high]

theorem classify_of_below {a : Addr} (h : a.toNat < 0xFF800) : classify a = .below := by
  simp only [classify]
  rw [if_pos h]

theorem classify_of_config {a : Addr} (low : 0xFF800 ≤ a.toNat) (high : a.toNat < 0xFF840) : classify a = .plain := by
  simp only [classify]
  rw [if_neg (by omega), if_pos high]

theorem classify_of_above {a : Addr} (low : 0xFFC80 ≤ a.toNat) : classify a = .plain := by
  simp only [classify]
  rw [if_neg (by omega), if_neg (by omega), if_neg (by omega), if_neg (by omega)]

theorem classify_statusAddr {k : Nat} (hk : k < 32) : classify (statusAddr k) = statusClass k := by
  have ha := statusAddr_toNat hk
  rw [classify_of_status (by omega) (by omega), ha]
  congr 1
  omega

theorem classify_lineAddr (n : LineNo) {w : Nat} (hw : w < 64) : classify (lineAddr n w) = lineClass n w := by
  have ha := lineAddr_toNat n hw
  rw [classify_of_block (by omega) (by omega), ha]
  congr 1
  · refine Fin.ext ?_
    rw [Fin.val_ofNat]
    omega
  · omega

/-- R2: the three setpoint words are words 1 to 3. -/
theorem setpoint_word_of_classify {a : Addr} {n : LineNo} {w : Nat} (h : classify a = .setpoint n w) :
    w = 1 ∨ w = 2 ∨ w = 3 := by
  revert h
  simp only [classify, statusClass, lineClass]
  generalize (a.toNat - 0xFF880) % 0x80 / 2 = x
  repeat' split
  all_goals intro h
  all_goals injection h
  all_goals omega

/-! ### Bit 0 of an address (log 26) -/

theorem wordAddr_toNat (a : Addr) : (wordAddr a).toNat = a.toNat - a.toNat % 2 := by
  have hbit : wordAddr a = a >>> 1 <<< 1 := by
    unfold wordAddr
    apply BitVec.eq_of_getLsbD_eq
    intro i hi
    rw [BitVec.getLsbD_and]
    interval_cases i <;> simp
  rw [hbit, BitVec.toNat_shiftLeft, BitVec.toNat_ushiftRight, Nat.shiftRight_eq_div_pow, Nat.shiftLeft_eq]
  omega

theorem wordAddr_of_even {a : Addr} (h : a.toNat % 2 = 0) : wordAddr a = a :=
  BitVec.eq_of_toNat_eq (by rw [wordAddr_toNat, h, Nat.sub_zero])

@[simp] theorem wordAddr_wordAddr (a : Addr) : wordAddr (wordAddr a) = wordAddr a :=
  wordAddr_of_even (by rw [wordAddr_toNat]; omega)

@[simp] theorem wordAddr_statusAddr {k : Nat} (hk : k < 32) : wordAddr (statusAddr k) = statusAddr k :=
  wordAddr_of_even (by rw [statusAddr_toNat hk]; omega)

@[simp] theorem wordAddr_lineAddr (n : LineNo) {w : Nat} (hw : w < 64) : wordAddr (lineAddr n w) = lineAddr n w :=
  wordAddr_of_even (by rw [lineAddr_toNat n hw]; omega)

/-- Both bytes of a word are of one class. -/
theorem classify_wordAddr (a : Addr) : classify (wordAddr a) = classify a := by
  simp only [classify, wordAddr_toNat]
  generalize a.toNat = x
  have hoff (b : Nat) (hb : b % 2 = 0) : (x - x % 2 < b ↔ x < b) ∧ (x - x % 2 - b) / 2 = (x - b) / 2 ∧
      (x - x % 2 - b) / 0x80 = (x - b) / 0x80 ∧ (x - x % 2 - b) % 0x80 / 2 = (x - b) % 0x80 / 2 := by
    omega
  obtain ⟨-, hk, -, -⟩ := hoff 0xFF840 rfl
  obtain ⟨-, -, hn, hw⟩ := hoff 0xFF880 rfl
  simp only [hk, hn, hw, (hoff 0xFF800 rfl).1, (hoff 0xFF840 rfl).1, (hoff 0xFF880 rfl).1, (hoff 0xFFC80 rfl).1]

/-! ### The line of an address (R15) -/

theorem addrLine_of_block {a : Addr} {n : LineNo} (low : 0xFF880 + 0x80 * n.val ≤ a.toNat)
    (high : a.toNat < 0xFF880 + 0x80 * n.val + 0x80) : addrLine a = BitVec.ofNat 8 n.val := by
  simp only [addrLine]
  rw [if_pos (by omega)]
  congr 1
  omega

theorem addrLine_of_outside {a : Addr} (h : a.toNat < 0xFF880 ∨ 0xFFC80 ≤ a.toNat) : addrLine a = 0xFF := by
  simp only [addrLine]
  rw [if_neg (by omega)]

theorem addrLine_lineAddr (n : LineNo) {w : Nat} (hw : w < 64) : addrLine (lineAddr n w) = lineByte n := by
  have ha := lineAddr_toNat n hw
  exact addrLine_of_block (by omega) (by omega)

end Sys2Proof.Machine
end
-- ==== Sys2Proof/Proofs/Course.lean ====
section
/-! PROOFS. What a command can do, said once: `Course c s t` says that t is reached from s in the course of command c by
updates of single parts of the state, each with the conditions under which the model makes it. The shared operations are
such courses here, and every command is one in the file after this. An invariant of every command is then an induction on
`Course`. -/

namespace Sys2Proof.Machine

/-! ### What may happen to a line context -/

/-- The contexts agree in every field that the rules of a line's state and the Binding Table read. -/
structure Line.Agrees (l l' : Line) : Prop where
  state : l'.state = l.state
  stage : l'.stage = l.stage
  copy : l'.copy = l.copy
  filling : l'.filling.isSome = l.filling.isSome
  flowTarget : l'.flowTarget = l.flowTarget
  admitted : l'.admitted = l.admitted
  ceilingRequest : l'.ceilingRequest = l.ceilingRequest
  intensityCeiling : l'.intensityCeiling = l.intensityCeiling
  effectiveCeiling : l'.effectiveCeiling = l.effectiveCeiling
  take : l'.take = l.take
  window : l'.window = l.window
  dwell : l'.dwell = l.dwell
  ramp : l'.ramp = l.ramp
  settle : l'.settle = l.settle

/-- The moves of a line that leave its stage with it and start no injection: the accounting and the window of a sample, the
setpoints, the timers, and the entries to HOLDING, ENDED, TRIPPED and CLOSING with the return from CLOSING. -/
inductive LineMove : Line → Line → Prop
  | agrees {l l' : Line} (h : l.Agrees l') : LineMove l l'
  | trans {l l' l'' : Line} : LineMove l l' → LineMove l' l'' → LineMove l l''
  | account (n : LineNo) (l : Line) (x : Sample) : LineMove l (meterStep n l x).1
  | window (l : Line) (p : Word × Word) : LineMove l { l with window := windowAppend l.window p }
  | target (l : Line) (v : Word) (h : l.state.admits = true) : LineMove l (l.setFlowTarget (minWord v l.maxFlow))
  | ceiling (l : Line) (v : Word) :
    LineMove l { l with
      ceilingRequest := minWord v l.pmax
      effectiveCeiling := Line.effectiveAt (minWord v l.pmax) l.intensityCeiling }
  | rampUp (l : Line) (h : l.state.flowing = true) : LineMove l l.rampUp
  | restartRamp (l : Line) : LineMove l l.restartRamp
  | settled (l : Line) : LineMove l { l with settle := .stopped }
  | hold (l : Line) (r : HoldReason) (h : l.state.flowing = true) : LineMove l (l.enterHolding r)
  | end_ (l : Line) (r : EndReason) (h : l.state.admits = true) : LineMove l (l.enterEnded r)
  | trip (l : Line) (r : TripCause) (h : l.state.admits = true) : LineMove l (l.enterTripped r)
  | close (l : Line) (h : l.state = .injecting) : LineMove l l.enterClosing
  | reopen (l : Line) (h : l.state = .closing) : LineMove l l.returnInjecting

theorem LineMove.refl (l : Line) : LineMove l l := .agrees (by constructor <;> rfl)

theorem LineState.admits_of_flowing {st : LineState} (h : st.flowing = true) : st.admits = true := by
  simp [LineState.admits, h]

theorem LineState.admits_of_idleBound {st : LineState} (h : st.idleBound = true) : st.admits = true := by
  simp [LineState.admits, h]

theorem LineState.flowing_iff (st : LineState) : st.flowing = true ↔ st = .injecting ∨ st = .closing := by
  cases st <;> decide

theorem LineState.idleBound_iff (st : LineState) : st.idleBound = true ↔ st = .bound ∨ st = .holding := by
  cases st <;> decide

/-- The refusal check takes INJECTING to CLOSING, CLOSING back, or does nothing (R102, R103). -/
theorem refusalCheck_move (n : LineNo) (l : Line) (x : Sample) (h : l.state.flowing = true) :
    LineMove l (refusalCheck n l x).1 := by
  unfold refusalCheck
  rcases (LineState.flowing_iff _).mp h with hi | hc
  · rw [if_neg (by simp [hi])]
    split
    · exact .close l hi
    · exact .refl l
  · rw [if_pos hc]
    split
    · exact .refl l
    · exact .reopen l hc

/-- The checks of INJECTING and CLOSING make one of these moves or none. -/
theorem flowingChecks_move (n : LineNo) (l : Line) (x : Sample) (now : Long) (h : l.state.flowing = true) :
    LineMove l (flowingChecks n l x now).1 := by
  unfold flowingChecks
  split
  · exact .trip l _ (LineState.admits_of_flowing h)
  · split
    · exact .hold l _ h
    · split
      · exact .end_ l _ (LineState.admits_of_flowing h)
      · split
        · exact .end_ l _ (LineState.admits_of_flowing h)
        · exact refusalCheck_move n l x h

/-- The baseline, the rise and the return touch no field of the rules. -/
theorem idleChecks_move (n : LineNo) (l : Line) (x : Sample) : LineMove l (idleChecks n l x).1 := by
  refine .agrees ?_
  unfold idleChecks
  split
  · constructor <;> rfl
  · dsimp only
    split
    · constructor <;> rfl
    · split
      · constructor <;> rfl
      · split <;> constructor <;> rfl

theorem boundChecks_move (n : LineNo) (l : Line) (x : Sample) (h : l.state.idleBound = true) :
    LineMove l (boundChecks n l x).1 := by
  unfold boundChecks
  split
  · exact .trip l _ (LineState.admits_of_idleBound h)
  · exact idleChecks_move n l x

/-- Steps 4 and 5 in INJECTING and CLOSING: the window, then the checks (R100, R101). -/
theorem sampleChecks_of_flowing (n : LineNo) (l : Line) (x : Sample) (now : Long) (h : l.state.flowing = true) :
    sampleChecks n l x now = flowingChecks n { l with window := windowAppend l.window (x.pressure, x.flow) } x now := by
  rcases (LineState.flowing_iff _).mp h with hst | hst <;> rcases l with ⟨st⟩ <;> cases hst <;> rfl

theorem sampleChecks_of_idleBound (n : LineNo) (l : Line) (x : Sample) (now : Long) (h : l.state.idleBound = true) :
    sampleChecks n l x now = boundChecks n l x := by
  rcases (LineState.idleBound_iff _).mp h with hst | hst <;> rcases l with ⟨st⟩ <;> cases hst <;> rfl

/-- No check is made in any other state (R101). -/
theorem sampleChecks_of_not_admits (n : LineNo) (l : Line) (x : Sample) (now : Long) (h : l.state.admits = false) :
    sampleChecks n l x now = (l, []) := by
  rcases l with ⟨st⟩
  cases st with
  | bound | injecting | closing | holding => cases h
  | vacant | binding | ended | tripped => rfl

/-- Steps 4 and 5 of a sample are moves in every state. -/
theorem sampleChecks_move (n : LineNo) (l : Line) (x : Sample) (now : Long) : LineMove l (sampleChecks n l x now).1 := by
  by_cases hf : l.state.flowing = true
  · rw [sampleChecks_of_flowing n l x now hf]
    exact .trans (.window l (x.pressure, x.flow)) (flowingChecks_move n _ x now hf)
  · by_cases hi : l.state.idleBound = true
    · rw [sampleChecks_of_idleBound n l x now hi]
      exact boundChecks_move n l x hi
    · rw [sampleChecks_of_not_admits n l x now (by simp [LineState.admits, hf, hi])]
      exact .refl l

/-! ### What may happen to a link -/

/-- The FIFO holds at most three samples and PENDING no kind twice (R137, R139). -/
def Link.Small (k : Link) : Prop := k.fifo.length ≤ Config.fifoCapacity ∧ k.pending.Nodup

/-- A move of a link that keeps the sizes of its FIFO and of PENDING. -/
def LinkMove (k k' : Link) : Prop := k.Small → k'.Small

theorem LinkMove.of_eq {k k' : Link} (hf : k'.fifo = k.fifo) (hp : k'.pending = k.pending) : LinkMove k k' := by
  intro h
  unfold Link.Small
  rw [hf, hp]
  exact h

theorem LinkMove.trans {k k' k'' : Link} (h : LinkMove k k') (g : LinkMove k' k'') : LinkMove k k'' := fun hk => g (h hk)

theorem LinkMove.of_empty {k k' : Link} (hf : k'.fifo = []) (hp : k'.pending = []) : LinkMove k k' := by
  intro _
  unfold Link.Small
  rw [hf, hp]
  exact ⟨Nat.zero_le _, List.nodup_nil⟩

/-! ### The course of a command -/

/-- A notice of a load may be sent: an image is loaded, or a drain resumes an operation that still has it to send. -/
def NoticeComes (c : Instr) (s t : State) : Prop :=
  t.config.image ≠ none ∨ c = .insertQueueDrain ∧ ∃ w ∈ s.waiting, Act.loadNotice ∈ w.rest

/-- A notice that may be sent may be sent as long as the configuration is the same. -/
theorem NoticeComes.congr {c : Instr} {s t u : State} (h : NoticeComes c s t) (hu : u.config = t.config) :
    NoticeComes c s u := by
  unfold NoticeComes
  rw [hu]
  exact h

/-- The conditions under which PLANT STOP is released (R158, R161). -/
def ReleaseHolds (c : Instr) (s : State) : Prop :=
  (c = .loadNotice ∧ s.alert.plantStop = some .reset ∧ s.alert.loadNotices ≠ 0) ∨
    ((∃ arg, rowOf c = .releaseStop arg) ∧ s.config.image ≠ none ∧ s.alert.pending.getLsbD 0 = false ∧
      ¬ tripComes s ∧ ∀ n, (s.line n).state.flowing = false)

/-- The conditions under which line n comes to inject (R64, R66). -/
def StartHolds (c : Instr) (s : State) (n : LineNo) : Prop :=
  (s.line n).linkCopy = .up ∧ s.alert.plantStop = none ∧ (s.line n).flags.getLsbD 1 = false ∧
    (((s.line n).state = .bound ∧ ∃ arg, rowOf c = .start n arg) ∨
      ((s.line n).state = .holding ∧ ∃ arg, rowOf c = .resume n arg))

/-- The command writes the word at an address to the RAM: a drain, or the grant of a write that is not refused (R7, R8). -/
def MayWrite (c : Instr) (s : State) (a : Addr) : Prop :=
  c = .insertQueueDrain ∨ ∃ w, s.cycle = .write w ∧ a = w.addr ∧ s.refusedAtGrant w.addr = none

/-- The states in the course of command c from state s. -/
inductive Course (c : Instr) (s : State) : State → Prop
  | refl : Course c s s
  | reset (order : List Block) (h : c = .reset order) :
    Course c s { State.cleared with pending := s.pending, mem := s.mem, freeCount := s.freeCount }
  | accept {t : State} (p : Post) : Course c s t → t.takesPost p = true → Course c s (t.accept p)
  | wait {t : State} (w : WaitingPost) : Course c s t → (Act.loadNotice ∈ w.rest → NoticeComes c s t) →
    Course c s { t with waiting := t.waiting ++ [w] }
  | leave {t : State} (ws : List WaitingPost) : Course c s t → ws ⊆ t.waiting → Course c s { t with waiting := ws }
  | pop {t : State} {e : Post} {rest : List Post} : Course c s t → t.queue = e :: rest → Course c s (t.popQueue rest)
  | write {t : State} (a : Addr) (v : Word) (lanes : Lanes) : Course c s t → MayWrite c s a →
    Course c s { t with mem := writeLanes t.mem a v lanes }
  | count {t : State} (r : Nat) : Course c s t → (t.runCount ≤ Config.hostRunLimit → r ≤ Config.hostRunLimit) →
    Course c s { t with runCount := r }
  | cycle {t : State} (cy : HostCycle) (rf : RefusalRecord) : Course c s t →
    (∀ w, cy.mayWrite = some w → classify (wordAddr w.addr) ≠ .partOwned ∨
      ∃ w', t.cycle.mayWrite = some w' ∧ w'.addr = w.addr) →
    Course c s { t with cycle := cy, refusal := rf }
  | others {t : State} (free : Nat) (data : Word) (port : PortGrant) (jobs : List Job) (obs : List Observation)
    (cf : ConfigUnit) : Course c s t → cf.image = t.config.image →
    Course c s { t with
      freeCount := free, hostData := data, port := port, jobs := jobs, observations := obs, config := cf }
  | image {t : State} (cf : ConfigUnit) : Course c s t → cf.image ≠ none → Course c s { t with config := cf }
  | ring {t : State} (r : Option Ring) : Course c s t → (∀ x, r = some x → x.base % 16 = 0) →
    Course c s { t with oldRing := r }
  | report {t : State} (u : ReportUnit) : Course c s t →
    (t.report.pending.length ≤ Config.pendingReports → u.pending.length ≤ Config.pendingReports) →
    Course c s { t with report := u }
  | alert {t : State} (a : AlertUnit) : Course c s t → (a.plantStop = none → t.alert.plantStop = none) →
    a.loadNotices ≤ t.alert.loadNotices → Course c s { t with alert := a }
  | notice {t : State} : Course c s t → NoticeComes c s t →
    Course c s { t with alert := { t.alert with loadNotices := t.alert.loadNotices + 1 } }
  | unstop {t : State} (a : AlertUnit) : Course c s t → ReleaseHolds c s → t.config.image = s.config.image →
    a.loadNotices ≤ t.alert.loadNotices → Course c s { t with alert := a }
  | links {t : State} (ks : Vector Link 8) : Course c s t → (∀ n : LineNo, LinkMove (t.link n) ks[n]) →
    Course c s { t with links := ks }
  | lines {t : State} (ls : Vector Line 8) : Course c s t → (∀ n : LineNo, LineMove (t.line n) ls[n]) →
    Course c s { t with lines := ls }
  | inject {t : State} (n : LineNo) : Course c s t → StartHolds c s n → t.line n = s.line n →
    Course c s (t.setLine n (s.line n).enterInjecting)
  | bind {t : State} (n : LineNo) (st : StageNo) : Course c s t → t.line n = s.line n →
    (s.line n).state = .vacant → t.bindingOf st = none →
    Course c s ((t.claim n st).setLine n ((s.line n).enterBinding st))
  | bound {t : State} (n : LineNo) (st : StageNo) (words : Vector Word 38) : Course c s t →
    (t.line n).state = .binding → (t.line n).stage = some st →
    Course c s ((t.confirm n st).setLine n ((t.line n).enterBound words))
  | vacate {t : State} (n : LineNo) (leave : LeaveReason) : Course c s t →
    ((t.line n).state = .binding ∨ ∃ arg, rowOf c = .release n arg) →
    Course c s ((t.clearBinding n (t.line n).stage).setLine n ((t.line n).enterVacant leave))

/-- A vector of links or lines with one of them replaced. -/
theorem forall_getElem_set {α : Type} {k : Nat} {R : Fin k → α → Prop} (v : Vector α k) (n : Fin k) (a : α)
    (hn : R n a) (ho : ∀ m, m ≠ n → R m v[m]) (m : Fin k) : R m (v.set n a)[m] := by
  by_cases h : m = n
  · subst h
    simpa using hn
  · have h' : (n : Nat) ≠ m := fun e => h (Fin.ext e.symm)
    simpa [h'] using ho m h

namespace Course

variable {c : Instr} {s t : State}

/-! ### Lines and links one at a time -/

theorem setLine (h : Course c s t) (n : LineNo) (l : Line) (hl : LineMove (t.line n) l) : Course c s (t.setLine n l) :=
  .lines _ h (forall_getElem_set t.lines n l hl fun m _ => .refl (t.line m))

theorem setLink (h : Course c s t) (n : LineNo) (k : Link) (hk : LinkMove (t.link n) k) : Course c s (t.setLink n k) :=
  .links _ h (forall_getElem_set t.links n k hk fun _ _ => id)

/-- An update of a link that leaves its FIFO and PENDING alone. -/
theorem setLink_of_eq (h : Course c s t) (n : LineNo) (k : Link) (hf : k.fifo = (t.link n).fifo)
    (hp : k.pending = (t.link n).pending) : Course c s (t.setLink n k) :=
  h.setLink n k (.of_eq hf hp)

theorem setArrivals (h : Course c s t) (n : LineNo) (l : List LinkArrival) :
    Course c s (t.setLink n { t.link n with arrivals := l }) := h.setLink_of_eq n _ rfl rfl

theorem mapLines (h : Course c s t) (f : Line → Line) (hf : ∀ l, LineMove l (f l)) :
    Course c s { t with lines := t.lines.map f } :=
  .lines _ h fun n => by simpa [State.line] using hf (t.line n)

theorem mapLinks (h : Course c s t) (f : Link → Link) (hf : ∀ k, LinkMove k (f k)) :
    Course c s { t with links := t.links.map f } :=
  .links _ h fun n => by simpa [State.link] using hf (t.link n)

theorem arrive (h : Course c s t) (n : LineNo) (e : LinkInput) : Course c s (t.arrive n e) := h.setLink_of_eq n _ rfl rfl

theorem hand (h : Course c s t) (r : Report) : Course c s (t.hand r) := .report _ h id

theorem raise (h : Course c s t) (r : Raise) : Course c s (t.raise r) := .alert _ h id (Nat.le_refl _)

theorem useFree (h : Course c s t) : Course c s t.useFree :=
  .others (t.freeCount + 1) t.hostData t.port t.jobs t.observations t.config h rfl

theorem handLink (h : Course c s t) (n : LineNo) (kind : ReportKind) (detail : BitVec 7) (a b : Long) :
    Course c s (t.handLink n kind detail a b) := (h.hand _).useFree

/-- A cycle that can write no more than it could. -/
theorem cycle_of_addr (h : Course c s t) (cy : HostCycle) (rf : RefusalRecord)
    (hc : ∀ w, cy.mayWrite = some w → ∃ w', t.cycle.mayWrite = some w' ∧ w'.addr = w.addr) :
    Course c s { t with cycle := cy, refusal := rf } := .cycle cy rf h fun w hw => .inr (hc w hw)

/-! ### The acts of an operation -/

theorem sendCommand (h : Course c s t) (n : LineNo) (k : CommandKind) : Course c s (t.sendCommand n k) := by
  cases k with
  | setpoint => exact (h.setLine n _ (.agrees (by constructor <;> rfl))).setLink_of_eq n _ rfl rfl
  | stop => exact h.setLink_of_eq n _ rfl rfl
  | mix =>
    simp only [State.sendCommand]
    split
    · exact h.setLink_of_eq n _ rfl rfl
    · refine Course.useFree (h.setLink_of_eq n _ ?_ ?_) <;> rfl

theorem sendRefresh (h : Course c s t) (n : LineNo) : Course c s (t.sendRefresh n) :=
  (h.setLine n _ (.agrees (by constructor <;> rfl))).setLink_of_eq n _ rfl rfl

theorem recordWritten (h : Course c s t) : Course c s t.recordWritten := by
  have h' : Course c s { t with report := { t.report with inFlight := none } } := .report _ h id
  unfold State.recordWritten
  dsimp only
  split
  · split
    · exact h'.raise _
    · exact h'
  · exact h'

theorem perform (h : Course c s t) (a : Act) (hp : a.isPost = false) (hn : a = .loadNotice → NoticeComes c s t) :
    Course c s (t.perform a) := by
  cases a with
  | post p => cases hp
  | hand r => exact h.hand r
  | request n k => exact h.arrive n _
  | requestCeiling n =>
    simp only [State.perform, State.requestCeiling]
    split
    · exact h.arrive n _
    · exact h
  | restartRamp n => exact h.setLine n _ (.restartRamp _)
  | stop n => exact h.arrive n _
  | restart n => exact h.arrive n _
  | rearm n => exact h.arrive n _
  | observe o => exact .others t.freeCount t.hostData t.port t.jobs (t.observations ++ [o]) t.config h rfl
  | plantStop k => exact h.mapLines _ fun l => .agrees (by constructor <;> rfl)
  | tell n e => exact h.setLine n _ (.agrees (by constructor <;> rfl))
  | answer v r st =>
    simp only [State.perform]
    split
    · next w hw =>
      cases r with
      | none => exact h.cycle_of_addr (.write { w with value := v }) t.refusal (by rintro _ ⟨⟩; exact ⟨w, by rw [hw]; rfl, rfl⟩)
      | some r => exact h.cycle_of_addr (.answered w v r st) t.refusal (by rintro _ ⟨⟩; exact ⟨w, by rw [hw]; rfl, rfl⟩)
    · exact h
  | ask =>
    simp only [State.perform]
    split
    · next w hw => exact h.cycle_of_addr (.write w) t.refusal (by rintro _ ⟨⟩; exact ⟨w, by rw [hw]; rfl, rfl⟩)
    · exact h
  | recordPosted =>
    simp only [State.perform]
    split
    · next w hw => exact h.cycle_of_addr (.write w) t.refusal (by rintro _ ⟨⟩; exact ⟨w, by rw [hw]; rfl, rfl⟩)
    · exact h.cycle_of_addr .idle t.refusal nofun
    · exact h
  | loadNotice => exact .notice h (hn rfl)
  | loadEnded p => exact .report _ h id
  | notifyLinks => exact h.mapLinks _ fun k => .of_eq rfl rfl
  | enterStop n => exact h.sendCommand n .stop
  | setProducer v => exact .report _ h id
  | recordWritten => exact h.recordWritten
  | placed => exact .report _ h id

end Course
end Sys2Proof.Machine
end
-- ==== Sys2Proof/Proofs/OperationCourse.lean ====
section
/-! PROOFS. The shared operations are courses: running acts, what an operation goes on to, the waiting events of a
controller, a drain's resumptions, and the presentation of a write. -/

namespace Sys2Proof.Machine

/-! ### No continuation sends a notice of a load -/

theorem loadNotice_not_mem_of_isOfLine {n : LineNo} {acts : List Act} (h : ∀ a ∈ acts, a.isOfLine n = true) :
    Act.loadNotice ∉ acts := fun hm => by cases h _ hm

theorem State.takeStop_no_loadNotice (s : State) (n : LineNo) : Act.loadNotice ∉ (s.takeStop n).2 := by
  unfold State.takeStop
  dsimp only
  split <;> simp [lastCommandPost, postLine]

theorem State.takePending_no_loadNotice (s : State) (n : LineNo) : Act.loadNotice ∉ (s.takePending n).2 := by
  unfold State.takePending
  dsimp only
  split
  · simp
  · split <;> simp [lastCommandPost, postLine]

theorem State.takeNext_no_loadNotice (s : State) (n : LineNo) : Act.loadNotice ∉ (s.takeNext n).2 := by
  unfold State.takeNext
  dsimp only
  split
  · simp
  · split
    · exact s.takeStop_no_loadNotice n
    · split
      · exact s.takePending_no_loadNotice n
      · split <;> simp

theorem State.startCont_no_loadNotice (s : State) (k : Cont) : Act.loadNotice ∉ (s.startCont k).2 := by
  cases k with
  | sampleChecks n x => exact loadNotice_not_mem_of_isOfLine fun a ha => (sampleChecks_acts n _ x s.clock a ha).1
  | takeNext n => exact s.takeNext_no_loadNotice n
  | takePending n => exact s.takePending_no_loadNotice n

theorem State.imageNotice_no_loadNotice (s : State) (n : LineNo) : Act.loadNotice ∉ (s.imageNotice n).2 := by
  unfold State.imageNotice
  dsimp only
  split
  · split
    · simp [postLine]
    · split <;> simp
  · split
    · simp
    · cases (s.link n).inFlight <;> simp [lastCommandPost, postLine]

theorem State.takeOwn_no_loadNotice (s : State) (n : LineNo) (e : LinkInput) : Act.loadNotice ∉ (s.takeOwn n e).2 := by
  cases e with
  | takeNext => exact s.takeNext_no_loadNotice n
  | notice => exact s.imageNotice_no_loadNotice n
  | _ => exact List.not_mem_nil

theorem refusalActs_no_loadNotice (w : HostWrite) (r : RefuseReason) (st : Byte) (now : Long) :
    Act.loadNotice ∉ refusalActs w r st now := by
  simp [refusalActs]

namespace Course

variable {c : Instr} {s t : State}

/-! ### Running acts -/

/-- Acts run in the course of a command that may send the notices among them. -/
theorem runActs (h : Course c s t) (b : Block) (k : Option Cont) (acts : List Act)
    (hn : Act.loadNotice ∈ acts → NoticeComes c s t) : Course c s (State.runActs b k acts t).1 := by
  refine (State.runActs_keeps (fun u => Course c s u ∧ u.config = t.config) b k acts t ?accept ?act ?wait ⟨h, rfl⟩).1
  case accept => exact fun u p hu ht _ => ⟨.accept p hu.1 ht, hu.2⟩
  case act =>
    rintro u a ⟨hu, hcf⟩ ha hp
    exact ⟨hu.perform a hp fun e => (hn (e ▸ ha)).congr hcf, (u.perform_quiet a).config.trans hcf⟩
  case wait =>
    rintro u p rest ⟨hu, hcf⟩ hsuf
    exact ⟨.wait ⟨b, p, rest, k⟩ hu fun hm => (hn (hsuf.subset (List.mem_cons_of_mem _ hm))).congr hcf, hcf⟩

/-! ### The transmitter's next frame -/

theorem takeStop (h : Course c s t) (n : LineNo) : Course c s (t.takeStop n).1 := by
  unfold State.takeStop
  dsimp only
  split
  · exact h.setLink_of_eq n _ rfl rfl
  · exact h

theorem takePending (h : Course c s t) (n : LineNo) : Course c s (t.takePending n).1 := by
  unfold State.takePending
  dsimp only
  split
  · exact h
  · next r rest hp =>
    split
    · refine Course.sendCommand ?_ n r.command
      refine h.setLink n { t.link n with pending := rest } fun hs => ⟨hs.1, ?_⟩
      have hnd : (r :: rest).Nodup := hp ▸ hs.2
      exact hnd.of_cons
    · exact h

theorem takeNext (h : Course c s t) (n : LineNo) : Course c s (t.takeNext n).1 := by
  unfold State.takeNext
  dsimp only
  split
  · exact h
  · split
    · exact h.takeStop n
    · split
      · exact h.takePending n
      · split
        · exact h.sendRefresh n
        · exact h

theorem startCont (h : Course c s t) (k : Cont) : Course c s (t.startCont k).1 := by
  cases k with
  | sampleChecks n x => exact h.setLine n _ (sampleChecks_move n _ x t.clock)
  | takeNext n => exact h.takeNext n
  | takePending n => exact h.takePending n

/-! ### Operations and what follows them -/

theorem operate (h : Course c s t) (b : Block) (acts : List Act) (k : Option Cont)
    (hn : Act.loadNotice ∈ acts → NoticeComes c s t) : Course c s (t.operate b acts k) := by
  have h1 := h.runActs b k acts hn
  unfold State.operate
  split
  · next u heq => simpa [heq] using h1
  · next u heq =>
    rw [heq] at h1
    cases k with
    | none => exact h1
    | some k => exact (startCont h1 k).runActs b none _ fun hm => absurd hm (u.startCont_no_loadNotice k)

theorem react (h : Course c s t) : Course c s t.react := by
  unfold State.react
  split
  · next w v r st hcy =>
    refine Course.operate ?_ _ _ _ fun hm => absurd hm (refusalActs_no_loadNotice w r st t.clock)
    exact h.cycle_of_addr (.answering { w with value := v }) _ (by rintro _ ⟨⟩; exact ⟨w, by rw [hcy]; rfl, rfl⟩)
  · exact h

theorem imageNotice (h : Course c s t) (n : LineNo) : Course c s (t.imageNotice n).1 := by
  unfold State.imageNotice
  dsimp only
  split
  · split
    · exact h.setLink_of_eq n _ rfl rfl
    · split
      · exact h.setLink_of_eq n _ rfl rfl
      · exact h
  · split
    · exact h
    · exact h.setLink n _ (.of_empty rfl rfl)

theorem takeOwn (h : Course c s t) (n : LineNo) (e : LinkInput) : Course c s (t.takeOwn n e).1 := by
  cases e with
  | takeNext => exact h.takeNext n
  | notice => exact h.imageNotice n
  | _ => exact h

theorem flushLink (h : Course c s t) (n : LineNo) (count : Nat) : Course c s (State.flushLink n count t) := by
  induction count generalizing t with
  | zero => exact h
  | succ m ih =>
    unfold State.flushLink
    split
    · exact h
    · split
      · exact h
      · next e rest _ =>
        exact ih (((h.setArrivals n rest).takeOwn n e).operate _ _ _ fun hm =>
          absurd hm (State.takeOwn_no_loadNotice _ n e))

theorem flush (h : Course c s t) (n : LineNo) : Course c s (t.flush n) := h.flushLink n _

theorem flushAll (h : Course c s t) : Course c s t.flushAll :=
  (((((((h.flush 0).flush 1).flush 2).flush 3).flush 4).flush 5).flush 6).flush 7

theorem afterOperation (h : Course c s t) (b : Block) : Course c s (t.afterOperation b) := by
  cases b with
  | line n => exact h.react
  | link n => exact h.flush n
  | config => exact h.flushAll
  | passThrough | alert | report => exact h

theorem operation (h : Course c s t) (b : Block) (acts : List Act) (k : Option Cont)
    (hn : Act.loadNotice ∈ acts → NoticeComes c s t) : Course c s (t.operation b acts k) :=
  (h.operate b acts k hn).afterOperation b

/-- An operation with no notice among its acts. -/
theorem operation' (h : Course c s t) (b : Block) (acts : List Act) (k : Option Cont) (hn : Act.loadNotice ∉ acts) :
    Course c s (t.operation b acts k) := h.operation b acts k fun hm => absurd hm hn

theorem refuseOutright (h : Course c s t) (w : HostWrite) (r : RefuseReason) (st : Byte) :
    Course c s (t.refuseOutright w r st) := by
  unfold State.refuseOutright
  exact Course.operate (h.cycle_of_addr (.refusing w) _ nofun) _ _ _ fun hm =>
    absurd hm (refusalActs_no_loadNotice w r st t.clock)

/-! ### A drain -/

theorem endWait (h : Course c s t) (b : Block) : Course c s (t.endWait b) := by
  cases b with
  | link n =>
    unfold State.endWait
    dsimp only
    split
    · exact h
    · exact h.setLink_of_eq n _ rfl rfl
  | passThrough | line | alert | config | report => exact h

theorem resumed (h : Course c s t) (ws : List WaitingPost) : Course c s (ws.foldl State.resumed t) := by
  induction ws generalizing t with
  | nil => exact h
  | cons w rest ih => exact ih ((h.endWait w.block).afterOperation w.block)

/-- The blocks of posts that waited resume in the course of a drain. -/
theorem resume (h : Course c s t) (hc : c = .insertQueueDrain) (ws : List WaitingPost) (hws : ws ⊆ s.waiting) :
    Course c s (ws.foldl State.resume t) := by
  induction ws generalizing t with
  | nil => exact h
  | cons w rest ih =>
    refine ih (h.operate w.block w.rest w.cont fun hm => .inr ⟨hc, w, ?_, hm⟩) fun x hx => ?_
    · exact hws List.mem_cons_self
    · exact hws (List.mem_cons_of_mem w hx)

theorem resumeAll (h : Course c s t) (hc : c = .insertQueueDrain) (ws : List WaitingPost) (hws : ws ⊆ s.waiting) :
    Course c s (t.resumeAll ws) := (h.resume hc ws hws).resumed ws

theorem acceptWaiting (h : Course c s t) (ws : List WaitingPost) (hws : ws ⊆ t.waiting) :
    Course c s (State.acceptWaiting ws t).1 ∧ (State.acceptWaiting ws t).2 ⊆ ws := by
  induction ws generalizing t with
  | nil => exact ⟨.leave [] h (List.nil_subset _), List.Subset.refl _⟩
  | cons w rest ih =>
    have hrest : rest ⊆ t.waiting := fun x hx => hws (List.mem_cons_of_mem w hx)
    unfold State.acceptWaiting
    split
    · next hq =>
      obtain ⟨h1, h2⟩ := ih (.accept w.post h (by simp [State.takesPost, hq])) hrest
      exact ⟨h1, List.cons_subset_cons w h2⟩
    · split
      · next hl => exact ⟨.leave rest (.accept w.post h (by simp [State.takesPost, hl])) hrest, by simp⟩
      · exact ⟨.leave _ h hws, List.nil_subset _⟩

/-! ### The moves of a line with their operation -/

/-- A write presented to its owner: held, or taken with what the owner does. -/
theorem present (w : HostWrite) (waits : Bool) (take : State → State) (hw : classify (wordAddr w.addr) ≠ .partOwned)
    (ht : Course c s { s with cycle := .taken w } → Course c s (take { s with cycle := .taken w })) :
    Course c s (s.present w waits take) := by
  have hcy (cy : HostCycle) (hcy : cy.mayWrite = some w) : Course c s { s with cycle := cy } :=
    .cycle cy s.refusal .refl fun w' hw' => .inl (by rw [hcy] at hw'; cases hw'; exact hw)
  unfold State.present
  split
  · split
    · exact hcy (.held w) rfl
    · exact ht (hcy (.taken w) rfl)
  · split
    · exact ht (hcy (.taken w) rfl)
    · exact .refl
  · exact .refl

theorem takeMove (h : Course c s t) (n : LineNo) (m : Line × List Act × List Act) (hl : LineMove (t.line n) m.1)
    (hn : Act.loadNotice ∉ m.2.1 ++ m.2.2) : Course c s (t.takeMove n m) :=
  (h.setLine n m.1 hl).operation' _ _ _ hn

end Course
end Sys2Proof.Machine
end
-- ==== Sys2Proof/Proofs/CommandCourse.lean ====
section
/-! PROOFS. Every command is a course (`exec_course`): the host's cycles and the commands they carry, the grants of the port,
and the events of the blocks. -/

namespace Sys2Proof.Machine

/-! ### No move of a line sends a notice of a load -/

theorem dwellPosts_no_loadNotice (n : LineNo) (st : LineState) : Act.loadNotice ∉ dwellPosts n st := by
  unfold dwellPosts
  split <;> simp [postLine]

theorem endMove_no_loadNotice (n : LineNo) (l : Line) (r : EndReason) (now : Long) :
    Act.loadNotice ∉ (endMove n l r now).2.1 ++ (endMove n l r now).2.2 := by
  simp [endMove, statePosts, postLine, dwellPosts_no_loadNotice]

theorem holdMove_no_loadNotice (n : LineNo) (l : Line) (r : HoldReason) (time a b : Long) :
    Act.loadNotice ∉ (holdMove n l r time a b).2.1 ++ (holdMove n l r time a b).2.2 := by
  simp [holdMove, statePosts, postLine, dwellPosts_no_loadNotice]

theorem tripMove_no_loadNotice (n : LineNo) (l : Line) (r : TripCause) (time a b : Long) :
    Act.loadNotice ∉ (tripMove n l r time a b).2.1 ++ (tripMove n l r time a b).2.2 := by
  simp only [tripMove, List.mem_append, not_or]
  refine ⟨⟨⟨?_, dwellPosts_no_loadNotice n _⟩, by simp [statePosts, postLine]⟩, by simp⟩
  split <;> simp [postLine]

/-! ### The tests of the commands -/

/-- R162: the count is 0 where no line is INJECTING or CLOSING. -/
theorem State.flowingLines_eq_zero_iff (s : State) : s.flowingLines = 0 ↔ ∀ n, (s.line n).state.flowing = false := by
  unfold State.flowingLines
  rw [List.length_eq_zero_iff, List.filter_eq_nil_iff]
  constructor
  · intro h n
    simpa using h (s.line n) (by simp [State.line])
  · intro h l hl
    obtain ⟨n, hn, rfl⟩ := List.mem_iff_getElem.mp hl
    have := h ⟨n, by simpa using hn⟩
    simpa [State.line] using this

/-- The conditions of START and RESUME (R64, R66): the command passes its tests exactly where they hold. -/
theorem State.startTest_eq_none_iff (s : State) (n : LineNo) (from_ : LineState) :
    s.startTest n from_ = none ↔ (s.line n).state = from_ ∧ (s.line n).linkCopy = .up ∧ s.alert.plantStop = none ∧
      localStop (s.line n).flags = false := by
  unfold State.startTest
  repeat' split
  all_goals simp_all

/-- The conditions of BIND that bear on the line and the stage (R62). -/
theorem State.vacant_of_bindTest {s : State} {n : LineNo} {arg : Byte} (h : s.bindTest n arg = none) :
    (s.line n).state = .vacant ∧ s.bindingOf (Fin.ofNat 64 arg.toNat) = none := by
  unfold State.bindTest at h
  repeat' split at h
  all_goals simp_all

namespace Course

variable {c : Instr} {s t : State}

/-! ### Guard commands -/

theorem takeLoadConfig (h : Course c s t) : Course c s t.takeLoadConfig := by
  unfold State.takeLoadConfig
  split
  · exact h.operation' _ _ _ (by simp [guardPost])
  · refine Course.operation' ?_ _ _ _ (by simp [loadStatePost, guardPost])
    exact .report { t.report with paused := true }
      (.others t.freeCount t.hostData t.port (t.jobs ++ [.load 0]) t.observations
        { t.config with load := .loading, loadImage := some (Vector.replicate 12 0) } h rfl) id

theorem guardAcknowledge (h : Course c s t) : Course c s t.guardAcknowledge := by
  unfold State.guardAcknowledge
  split
  · exact h.operation' _ _ _ (by simp [guardPost])
  · refine Course.operation' ?_ _ _ _ (by simp [guardPost])
    exact .alert _ h id (Nat.le_refl _)

theorem guardStopAll (h : Course c s t) : Course c s t.guardStopAll := by
  unfold State.guardStopAll
  split
  · refine Course.operation' ?_ _ _ _ (by simp [guardPost])
    exact .alert _ h nofun (Nat.le_refl _)
  · refine Course.operation' ?_ _ _ _ (by simp [guardPost])
    exact .alert _ h nofun (Nat.le_refl _)
  · exact h.operation' _ _ _ (by simp [guardPost])
  · exact h.operation' _ _ _ (by simp [guardPost])

/-- RELEASE_STOP releases the plant stop where its conditions hold (R161). -/
theorem guardReleaseStop (cy : HostCycle) (h : Course c s { s with cycle := cy }) (hc : ∃ arg, rowOf c = .releaseStop arg) :
    Course c s (State.guardReleaseStop { s with cycle := cy }) := by
  unfold State.guardReleaseStop
  split
  · exact h.operation' _ _ _ (by simp [guardPost])
  · dsimp only
    split
    · exact h.operation' _ _ _ (by simp [guardPost])
    · next hcond =>
      simp only [not_or, State.tripPending, Bool.not_eq_true, Bool.or_eq_false_iff, ne_eq, not_not] at hcond
      obtain ⟨himage, ⟨hclass, hway⟩, hflow⟩ := hcond
      have hcomes : ¬ tripComes s := by
        have := State.tripOnItsWay_iff { s with cycle := cy }
        rw [hway] at this
        exact fun ht => by cases this.mpr ht
      have hhold : ReleaseHolds c s := .inr ⟨hc, himage, hclass, hcomes, (s.flowingLines_eq_zero_iff).mp hflow⟩
      refine Course.operation' ?_ _ _ _ (by simp [guardPost])
      exact .unstop _ h hhold rfl (Nat.le_refl _)

theorem guardCommand (cy : HostCycle) (code arg : Byte) (h : Course c s { s with cycle := cy })
    (hc : rowOf c = guardRow code arg) : Course c s (State.guardCommand { s with cycle := cy } code) := by
  unfold State.guardCommand
  split
  · exact h.operation' _ _ _ (by simp)
  · split
    · exact h.guardAcknowledge
    · split
      · exact h.guardStopAll
      · split
        · next h3 => exact guardReleaseStop cy h ⟨arg, by rw [hc, h3]; rfl⟩
        · exact h.operation' _ _ _ (by simp [guardPost])

theorem presentGuard (code arg : Byte) (hc : rowOf c = guardRow code arg) : Course c s (s.presentGuard code arg) := by
  have hw : classify (wordAddr (statusAddr 0)) ≠ .partOwned := by decide
  unfold State.presentGuard
  split
  · exact present _ _ _ hw fun ht => ht.takeLoadConfig
  · exact present _ _ _ hw fun ht => guardCommand _ code arg ht hc

/-! ### Line commands -/

theorem decline (h : Course c s t) (n : LineNo) (code : Byte) (o : LineOutcome) : Course c s (t.decline n code o) :=
  h.operation' _ _ _ (by simp [outcomePost, postLine])

/-- A command that moves the line, with the moved line already reached. -/
theorem commandMove (n : LineNo) (code : Byte) (m : Line × List Act × List Act) (h : Course c s (t.setLine n m.1))
    (hn : Act.loadNotice ∉ m.2.1 ++ m.2.2) : Course c s (t.commandMove n code m) := by
  refine h.operation' _ _ _ ?_
  simpa [outcomePost, postLine] using hn

theorem lineBind (n : LineNo) (arg : Byte) (h : Course c s t) (hl : t.line n = s.line n) :
    Course c s (t.lineBind n arg) := by
  unfold State.lineBind
  split
  · exact h.decline n _ _
  · next htest =>
    obtain ⟨hv, hfree⟩ := State.vacant_of_bindTest htest
    rw [hl] at hv
    have hb := Course.bind n _ h hl hv hfree
    rw [← hl] at hb
    refine Course.operation' ?_ _ _ _ (by simp [statePosts, outcomePost, postLine])
    exact .others t.freeCount t.hostData t.port _ t.observations t.config hb rfl

theorem lineStart (n : LineNo) (h : Course c s t) (hl : t.line n = s.line n) (ha : t.alert = s.alert)
    (hc : ∃ arg, rowOf c = .start n arg) : Course c s (t.lineStart n) := by
  unfold State.lineStart
  split
  · exact h.decline n _ _
  · next htest =>
    rw [State.startTest_eq_none_iff, hl, ha] at htest
    obtain ⟨hst, hup, hps, hls⟩ := htest
    refine commandMove n _ _ ?_ (by simp [statePosts, postLine])
    dsimp only
    rw [hl]
    exact .inject n h ⟨hup, hps, hls, .inl ⟨hst, hc⟩⟩ hl

theorem lineHold (h : Course c s t) (n : LineNo) : Course c s (t.lineHold n) := by
  unfold State.lineHold
  split
  · next hf =>
    exact commandMove n _ _ (h.setLine n _ (.hold _ .host hf)) (by simp [statePosts, postLine, dwellPosts_no_loadNotice])
  · exact h.decline n _ _

theorem lineResume (n : LineNo) (h : Course c s t) (hl : t.line n = s.line n) (ha : t.alert = s.alert)
    (hc : ∃ arg, rowOf c = .resume n arg) : Course c s (t.lineResume n) := by
  unfold State.lineResume
  split
  · exact h.decline n _ _
  · next htest =>
    rw [State.startTest_eq_none_iff] at htest
    obtain ⟨hst, hup, hps, hls⟩ := htest
    have hadm : (t.line n).state.admits = true := by rw [hst]; rfl
    dsimp only
    split
    · exact commandMove n _ _ (h.setLine n _ (.end_ _ .volumeCap hadm)) (endMove_no_loadNotice _ _ _ _)
    · split
      · exact commandMove n _ _ (h.setLine n _ (.end_ _ .intensity hadm)) (endMove_no_loadNotice _ _ _ _)
      · refine commandMove n _ _ ?_ (by simp [statePosts, postLine])
        dsimp only
        rw [hl] at hst hup hls ⊢
        exact .inject n h ⟨hup, ha ▸ hps, hls, .inr ⟨hst, hc⟩⟩ hl

theorem lineEnd (h : Course c s t) (n : LineNo) : Course c s (t.lineEnd n) := by
  unfold State.lineEnd
  dsimp only
  split
  · next hadm => exact commandMove n _ _ (h.setLine n _ (.end_ _ .hostEnd hadm)) (endMove_no_loadNotice _ _ _ _)
  · exact h.decline n _ _

theorem withdraw (h : Course c s t) (n : LineNo) : Course c s (t.withdraw n) := by
  rw [t.withdraw_eq n]
  exact .others t.freeCount t.hostData _ _ t.observations t.config h rfl

theorem lineRelease (n : LineNo) (h : Course c s t) (hc : ∃ arg, rowOf c = .release n arg) :
    Course c s (t.lineRelease n) := by
  unfold State.lineRelease
  dsimp only
  split
  · refine commandMove n _ _ ?_ (by simp [statePosts, postLine])
    dsimp only
    split
    · have hline : (t.withdraw n).line n = t.line n := by rw [t.withdraw_eq n]; rfl
      have := Course.vacate n .clear (h.withdraw n) (.inr hc)
      rwa [hline] at this
    · exact .vacate n .clear h (.inr hc)
  · exact h.decline n _ _

theorem lineControl (n : LineNo) (code arg : Byte) (h : Course c s t) (hl : t.line n = s.line n)
    (ha : t.alert = s.alert) (hc : rowOf c = lineRow n code arg) : Course c s (t.lineControl n code arg) := by
  unfold State.lineControl
  split
  · exact h.operation' _ _ _ (by simp)
  split
  · exact lineBind n arg h hl
  split
  · next e => exact lineStart n h hl ha ⟨arg, by rw [hc, e]; rfl⟩
  split
  · exact h.lineHold n
  split
  · next e => exact lineResume n h hl ha ⟨arg, by rw [hc, e]; rfl⟩
  split
  · exact h.lineEnd n
  split
  · next e => exact lineRelease n h ⟨arg, by rw [hc, e]; rfl⟩
  split
  · unfold State.lineResync
    split
    · exact h.operation' _ _ _ (by simp [outcomePost, postLine])
    · exact h.decline n _ _
  split
  · unfold State.lineRearm
    split
    · exact h.operation' _ _ _ (by simp [outcomePost, postLine])
    · exact h.decline n _ _
  · exact h.decline n _ _

theorem presentControl (n : LineNo) (code arg : Byte) (hc : rowOf c = lineRow n code arg) :
    Course c s (s.presentControl n code arg) := by
  refine present _ _ _ ?_ fun ht => lineControl n code arg ht rfl rfl hc
  change classify (wordAddr (lineAddr n 0)) ≠ .partOwned
  rw [classify_wordAddr, classify_lineAddr n (by decide)]
  nofun

/-! ### Setpoint writes and CONSUMER -/

theorem answerRefused (h : Course c s t) (n : LineNo) (v : Word) (r : RefuseReason) : Course c s (t.answerRefused n v r) :=
  h.operation' _ _ _ (by simp [answerOf])

theorem lineFlowTarget (h : Course c s t) (n : LineNo) (v : Word) : Course c s (t.lineFlowTarget n v) := by
  unfold State.lineFlowTarget
  dsimp only
  split
  · next hadm =>
    refine Course.operation' (h.setLine n _ (.target _ v hadm)) _ _ _ ?_
    split <;> simp [answerOf, postLine]
  · exact h.answerRefused n _ _

theorem lineCeilingRequest (h : Course c s t) (n : LineNo) (v : Word) : Course c s (t.lineCeilingRequest n v) := by
  unfold State.lineCeilingRequest
  dsimp only
  split
  · refine Course.operation' (h.setLine n _ (.ceiling _ v)) _ _ _ ?_
    split <;> simp [answerOf, postLine]
  · exact h.answerRefused n _ _

theorem lineMixRequest (h : Course c s t) (n : LineNo) (v : Word) : Course c s (t.lineMixRequest n v) := by
  unfold State.lineMixRequest
  dsimp only
  split
  · exact h.answerRefused n _ _
  split
  · exact h.operation' _ _ _ (by simp [answerOf])
  split
  · exact Course.operation' (h.setLine n _ (.agrees (by constructor <;> rfl))) _ _ _ (by simp [answerOf])
  · exact h.answerRefused n _ _

theorem presentSetpoint (n : LineNo) (w : Nat) (v : Word) (hw : w = 1 ∨ w = 2 ∨ w = 3) :
    Course c s (s.presentSetpoint n w v) := by
  refine present _ _ _ ?_ fun ht => ?_
  · change classify (wordAddr (lineAddr n w)) ≠ .partOwned
    rw [classify_wordAddr, classify_lineAddr n (by omega)]
    rcases hw with rfl | rfl | rfl <;> nofun
  · unfold State.lineSetpoint
    split
    · exact ht.lineFlowTarget n v
    · split
      · exact ht.lineCeilingRequest n v
      · exact ht.lineMixRequest n v

theorem presentConsumer (v : Word) : Course c s (s.presentConsumer v) := by
  unfold State.presentConsumer
  split
  · unfold State.takeConsumer
    split
    · have hcy : Course c s { s with cycle := .write (fullWrite (statusAddr 5) v) } :=
        .cycle _ s.refusal .refl fun w hw => .inl (by
          cases hw
          change classify (wordAddr (statusAddr 5)) ≠ .partOwned
          decide)
      exact .report { s.report with consumer := _ } hcy id
    · exact Course.refl.refuseOutright _ _ _
  · exact .refl

end Course
end Sys2Proof.Machine
end
-- ==== Sys2Proof/Proofs/EventCourse.lean ====
section
/-! PROOFS. The grants of the port and the events of the blocks are courses, and so is every command (`exec_course`). -/

namespace Sys2Proof.Machine

/-- A grant to the host brings the run count no further than its limit (R21, R22). -/
theorem State.hostRun_le {s : State} (h : s.granted = some .host) :
    s.hostRun ≤ Config.hostRunLimit := by
  unfold State.hostRun
  split
  · next hw =>
    unfold State.granted at h
    rw [Bool.or_eq_true] at hw
    repeat' split at h
    all_goals simp_all
  · exact Nat.zero_le _

/-- Step 2 of a SAMPLE accounts, leaves the line, or takes the meter as the new baseline (R96). -/
theorem meterStep_rec {p : Line × List Act → Prop} {n : LineNo} {l : Line} {x : Sample} (haccount : p (meterAccount n l x))
    (hleft : p (l, [])) (hover : p ({ l with meterBaseline := some x.meter }, [])) : p (meterStep n l x) := by
  unfold meterStep
  split
  · exact hleft
  · exact hleft
  · exact haccount
  · exact haccount
  · exact haccount
  · exact haccount
  · exact hover
  · exact hover

theorem meterStep_no_loadNotice (n : LineNo) (l : Line) (x : Sample) : Act.loadNotice ∉ (meterStep n l x).2 := by
  have hacc : Act.loadNotice ∉ (meterAccount n l x).2 := by
    unfold meterAccount
    split
    · simp
    · dsimp only
      split
      · simp
      · split <;> simp
  exact meterStep_rec (p := fun r => Act.loadNotice ∉ r.2) hacc List.not_mem_nil List.not_mem_nil

theorem eventTrip_no_loadNotice (n : LineNo) (l : Line) (r : TripCause) (now : Long) :
    Act.loadNotice ∉ (eventTrip n l r now).2.1 ++ (eventTrip n l r now).2.2 := tripMove_no_loadNotice _ _ _ _ _ _

/-- A sample delivered to the FIFO leaves it within its size (R137). -/
theorem Link.enqueue_move (k : Link) (x : Sample) : LinkMove k (k.enqueue x) := by
  intro hk
  obtain ⟨hf, hp⟩ := hk
  unfold Link.enqueue
  split
  · next hlt =>
    refine ⟨?_, hp⟩
    rw [List.length_append]
    exact hlt
  · refine ⟨?_, hp⟩
    rw [List.length_append, List.length_dropLast, List.length_singleton]
    unfold Config.fifoCapacity at *
    omega

theorem countPost_no_loadNotice (n : LineNo) (k k' : Link) : Act.loadNotice ∉ countPost n k k' := by
  unfold countPost
  split <;> simp [linkStatePost, postLine]

theorem Link.frameEnded_move (k : Link) (kind : FrameKind) (cf : ConfigUnit) : LinkMove k (k.frameEnded kind cf) := by
  unfold Link.frameEnded
  dsimp only
  split <;> exact .of_eq rfl rfl

/-- Where it loses the newest other record the pending list is one shorter (R163). -/
theorem dropNewestOther_length (l : List Report) (h : l.any (fun x => x.kind != .trip) = true) :
    (dropNewestOther l).length + 1 = l.length := by
  obtain ⟨x, hx, hk⟩ := List.any_eq_true.mp h
  have hlen : ∀ q : List Report, (∃ x ∈ q, (x.kind != .trip) = true) →
      ∃ y rest, extractFirst (fun r => r.kind != .trip) q = some (y, rest) ∧ rest.length + 1 = q.length := by
    intro q
    induction q with
    | nil => simp
    | cons z zs ih =>
      intro hq
      unfold extractFirst
      split
      · exact ⟨z, zs, rfl, rfl⟩
      · next hz =>
        obtain ⟨x, hx, hk⟩ := hq
        have hx' : x ∈ zs := (List.mem_cons.mp hx).resolve_left fun e => hz (e ▸ hk)
        obtain ⟨y, rest, he, hl⟩ := ih ⟨x, hx', hk⟩
        exact ⟨y, z :: rest, by rw [he], by simp [hl]⟩
  obtain ⟨y, rest, he, hl⟩ := hlen l.reverse ⟨x, List.mem_reverse.mpr hx, hk⟩
  unfold dropNewestOther
  rw [he]
  simpa using hl

/-- The pending list stays within its size (R163). -/
theorem keepReport_length_le (l : List Report) (r : Report) (h : l.length ≤ Config.pendingReports) :
    (keepReport l r).1.length ≤ Config.pendingReports := by
  unfold keepReport
  split
  · next hlt =>
    rw [List.length_append]
    exact hlt
  · split
    · next hk =>
      have := dropNewestOther_length l hk.2
      rw [List.length_append, List.length_singleton]
      omega
    · exact h

namespace Course

variable {c : Instr} {s t : State}

/-! ### The port -/

theorem grantRead (a : Addr) (hg : s.granted = some .host) : Course c s (s.grantRead a) := by
  have hrun : s.runCount ≤ Config.hostRunLimit → s.hostRun ≤ Config.hostRunLimit := fun _ => State.hostRun_le hg
  have h1 : Course c s { s with cycle := .idle } := .cycle .idle s.refusal .refl nofun
  have h2 : Course c s { s with cycle := .idle, hostData := readWord s.mem a } :=
    .others s.freeCount _ s.port s.jobs s.observations s.config h1 rfl
  exact .count s.hostRun h2 hrun

theorem grantWrite (w : HostWrite) (hg : s.granted = some .host) (hw : s.cycle = .write w) :
    Course c s (s.grantWrite w) := by
  have hrun : s.runCount ≤ Config.hostRunLimit → s.hostRun ≤ Config.hostRunLimit := fun _ => State.hostRun_le hg
  unfold State.grantWrite
  split
  · exact Course.refuseOutright (.count s.hostRun .refl hrun) _ _ _
  · next hr =>
    have h1 : Course c s { s with cycle := .idle } := .cycle .idle s.refusal .refl nofun
    exact .count s.hostRun (.write w.addr w.value w.lanes h1 (.inr ⟨w, hw, rfl, hr⟩)) hrun

theorem drainHead (hc : c = .insertQueueDrain) {e : Post} {rest : List Post} (hq : s.queue = e :: rest) :
    Course c s (s.drainHead e rest) := by
  obtain ⟨h1, h2⟩ := (Course.pop (c := c) .refl hq).acceptWaiting s.waiting (List.Subset.refl _)
  exact Course.resumeAll (.write e.addr e.data .both h1 (.inl hc)) hc _ h2

theorem deliverWord (h : Course c s t) (v : Word) : Course c s (t.deliverWord v) := by
  unfold State.deliverWord
  split
  · next n stage tag k rest hj =>
    have hl : LineMove (t.line n) ((t.line n).deliver k v) := .agrees (by constructor <;> simp [Line.deliver])
    have hm : LineMove (t.line n) (((t.line n).deliver k v).jobEnded tag) :=
      .trans hl (.agrees (by constructor <;> rfl))
    unfold State.deliverCopy
    dsimp only
    split
    · exact .others t.freeCount t.hostData t.port _ t.observations t.config (h.setLine n _ hl) rfl
    · exact .others t.freeCount t.hostData t.port _ t.observations t.config (h.setLine n _ hm) rfl
  · next k rest hj =>
    unfold State.deliverLoad
    dsimp only
    split
    · exact .others t.freeCount t.hostData t.port _ t.observations _ h rfl
    · exact .others t.freeCount t.hostData t.port _ t.observations _ h rfl
  · exact h

theorem of_tableReaderGrant (h : exec .tableReaderGrant s = .next t) : Course c s t := by
  have hport (p : PortGrant) (jobs : List Job) : Course c s { s with port := p, jobs := jobs } :=
    .others s.freeCount s.hostData p jobs s.observations s.config .refl rfl
  simp only [exec, execTableReaderGrant, Host.Outcome.next.injEq] at h
  subst h
  split
  · unfold State.endRead
    split
    · exact hport .free _
    · exact deliverWord (hport .free s.jobs) _
  · next v _ _ =>
    split
    · exact .count 0 (hport (.reading v false) s.jobs) fun _ => Nat.zero_le _
    · exact .refl
  · exact .refl

/-! ### Events of a line -/

/-- A supervisor takes an event of its mail. -/
theorem setMail (h : Course c s t) (n : LineNo) (m : LineMail) : Course c s (t.setLine n { t.line n with mail := m }) :=
  h.setLine n _ (.agrees (by constructor <;> rfl))

theorem endBind (h : Course c s t) (n : LineNo) (tag : Byte) : Course c s (t.endBind n tag) := by
  unfold State.endBind
  dsimp only
  split
  · next hb =>
    split
    · next stage f hs hf =>
      split
      · exact Course.operation' (.bound n stage f.words h hb.1 hs) _ _ _ (by simp [statePosts, postLine])
      · next e _ =>
        have hv := Course.vacate n e.reason h (.inl hb.1)
        rw [hs] at hv
        exact hv.operation' _ _ _ (by simp [statePosts, postLine])
    · exact h
  · exact h

theorem reportOverrun (h : Course c s t) (n : LineNo) : Course c s (t.reportOverrun n) := by
  unfold State.reportOverrun
  split
  · exact h
  · exact Course.handLink (h.setLink_of_eq n { t.link n with overrun := none } rfl rfl) n _ _ _ _

theorem handleSample (h : Course c s t) (n : LineNo) (x : Sample) : Course c s (t.handleSample n x) := by
  unfold State.handleSample
  dsimp only
  split
  · exact h
  · refine Course.operation' (h.setLine n _ (.trans (.agrees ?_) (.account n _ x))) _ _ _ ?_
    · constructor <;> rfl
    · rw [List.mem_append, not_or]
      exact ⟨meterStep_no_loadNotice n _ x, loadNotice_not_mem_of_isOfLine fun a ha => (measurementPosts_acts n _ x a ha).1⟩

theorem of_sample (n : LineNo) (h : exec (.sample n) s = .next t) : Course c s t := by
  simp only [exec, execSample, Host.Outcome.next.injEq] at h
  subst h
  split
  · exact .refl
  · split
    · exact .refl
    · next x rest hf =>
      refine Course.handleSample (Course.reportOverrun ?_ n) n x
      refine Course.refl.setLink n { s.link n with fifo := rest } fun hs => ⟨?_, hs.2⟩
      have hlen := hs.1
      rw [hf, List.length_cons] at hlen
      exact Nat.le_of_succ_le hlen

theorem of_rampExpiry (n : LineNo) (h : exec (.rampExpiry n) s = .next t) : Course c s t := by
  simp only [exec, execRampExpiry, Host.Outcome.next.injEq] at h
  subst h
  split
  · exact .refl
  · next hcond =>
    simp only [Bool.or_eq_true, Bool.not_eq_true', not_or, Bool.not_eq_true, Bool.not_eq_false] at hcond
    exact Course.refl.takeMove n _ (.rampUp _ hcond.2) (by simp [postLine])

theorem of_dwellExpiry (n : LineNo) (h : exec (.dwellExpiry n) s = .next t) : Course c s t := by
  simp only [exec, execDwellExpiry, Host.Outcome.next.injEq] at h
  subst h
  split
  · exact .refl
  · next hcond =>
    have hst : (s.line n).state = .closing := by simp_all
    exact Course.refl.takeMove n _ (.end_ _ .refusal (by rw [hst]; rfl)) (endMove_no_loadNotice _ _ _ _)

theorem takeLinkState (h : Course c s t) (n : LineNo) (to_ : LinkState) : Course c s (t.takeLinkState n to_) := by
  have hl : LineMove (t.line n) ((t.line n).takeLinkState to_) := by
    unfold Line.takeLinkState
    split <;> exact .agrees (by constructor <;> rfl)
  unfold State.takeLinkState
  dsimp only
  split
  · next hcond =>
    exact h.takeMove n _ (.trans hl (.trip _ .linkLost (LineState.admits_of_flowing hcond.2))) (eventTrip_no_loadNotice _ _ _ _)
  · exact h.setLine n _ hl

theorem takeUnanswered (h : Course c s t) (n : LineNo) (count : Byte) : Course c s (t.takeUnanswered n count) := by
  unfold State.takeUnanswered
  dsimp only
  split
  · next hcond =>
    exact h.takeMove n _ (.trip _ .commandLost (LineState.admits_of_flowing hcond.2)) (eventTrip_no_loadNotice _ _ _ _)
  · exact h

theorem takeRefusedLocal (h : Course c s t) (n : LineNo) (echo : Byte) : Course c s (t.takeRefusedLocal n echo) := by
  unfold State.takeRefusedLocal
  dsimp only
  split
  · next hf => exact h.takeMove n _ (.hold _ .localStop hf) (holdMove_no_loadNotice _ _ _ _ _ _)
  · exact h

theorem takeDemand (h : Course c s t) (n : LineNo) (o : Observation) : Course c s (t.takeDemand n o) := by
  unfold State.takeDemand
  dsimp only
  split
  · next hf => exact h.takeMove n _ (.hold _ .communication hf) (holdMove_no_loadNotice _ _ _ _ _ _)
  · exact h

theorem takePlantStop (h : Course c s t) (n : LineNo) (cause : PlantCause) : Course c s (t.takePlantStop n cause) := by
  unfold State.takePlantStop
  dsimp only
  split
  · exact h
  · next r _ =>
    split
    · next hf => exact h.takeMove n _ (.trip _ r (LineState.admits_of_flowing hf)) (eventTrip_no_loadNotice _ _ _ _)
    · exact h

theorem takeObservation (h : Course c s t) (o : Observation) : Course c s (t.takeObservation o) := by
  unfold State.takeObservation
  generalize allLines = xs
  induction xs generalizing t with
  | nil => exact h
  | cons x rest ih =>
    refine ih ?_
    unfold State.demandOf
    dsimp only
    split
    · exact (h.hand _).setMail x _
    · exact h

theorem observed (n : LineNo) (isReturn : Bool) : Course c s (s.observed n isReturn) := by
  unfold State.observed
  split
  · exact .refl
  · next o rest _ =>
    split
    · exact takeObservation (.others s.freeCount s.hostData s.port s.jobs rest s.config .refl rfl) o
    · exact .refl

/-! ### The uplink receiver -/

theorem takeBetween (n : LineNo) (x : Byte) : Course c s (s.takeBetween n x) := by
  unfold State.takeBetween
  dsimp only
  split
  · exact .refl
  split
  · exact .refl
  split
  · exact Course.refl.setLink_of_eq n _ rfl rfl
  · exact Course.handLink (Course.refl.setLink_of_eq n (s.link n).hunt rfl rfl) n _ _ _ _

theorem badFrame (n : LineNo) (frame : List Byte) : Course c s (s.badFrame n frame) :=
  Course.handLink (Course.refl.setLink_of_eq n (s.link n).hunt rfl rfl) n _ _ _ _

theorem deliverSample (n : LineNo) (x : Sample) : Course c s (s.deliverSample n x) :=
  Course.arrive (Course.refl.setLink n _ (.trans (k' := (s.link n).between) (.of_eq rfl rfl) (Link.enqueue_move _ x))) n _

theorem deliverAnswer (n : LineNo) (echo outcome : Byte) : Course c s (s.deliverAnswer n echo outcome) :=
  Course.arrive (Course.refl.setLink_of_eq n (s.link n).between rfl rfl) n _

/-! ### Events of a Field Link Controller -/

/-- A controller takes an event: whatever the taking does is a course that sends no notice of a load. -/
theorem takeInput (n : LineNo) (src : InputSource) (take : State → State × List Act × Option Cont)
    (hk : ∀ t, Course c s t → Course c s (take t).1 ∧ Act.loadNotice ∉ (take t).2.1) :
    Course c s (s.takeInput n src take) := by
  unfold State.takeInput
  split
  · exact .refl
  · split
    · exact .refl
    · next rest _ =>
      obtain ⟨h1, h2⟩ := hk _ (Course.refl.setArrivals n rest)
      exact h1.operation' _ _ _ h2

theorem judgeState (h : Course c s t) (n : LineNo) (x : Sample) :
    Course c s (t.judgeState n x).1 ∧ Act.loadNotice ∉ (t.judgeState n x).2 := by
  have hs : Course c s (t.setLink n ((t.link n).sampleSeen x (t.config.word 3))) := h.setLink_of_eq n _ rfl rfl
  unfold State.judgeState
  dsimp only
  split
  · exact ⟨h, by simp⟩
  · exact ⟨hs, by simp⟩
  · exact ⟨hs, by simp [linkStatePost, postLine]⟩
  · exact ⟨hs.useFree, by simp [linkStatePost, postLine]⟩

theorem judgeLatch (h : Course c s t) (n : LineNo) (x : Sample) :
    Course c s (t.judgeLatch n x).1 ∧ Act.loadNotice ∉ (t.judgeLatch n x).2 := by
  unfold State.judgeLatch
  dsimp only
  split
  · refine ⟨Course.useFree (h.setLink_of_eq n _ ?_ ?_), by simp [latchPost, postLine]⟩ <;> rfl
  · exact ⟨h.setLink_of_eq n _ rfl rfl, by simp⟩

theorem judge (h : Course c s t) (n : LineNo) (x : Sample) :
    Course c s (t.judge n x).1 ∧ Act.loadNotice ∉ (t.judge n x).2.1 := by
  unfold State.judge
  split
  · exact ⟨h, by simp [ends]⟩
  · obtain ⟨h1, h2⟩ := h.judgeState n x
    obtain ⟨h3, h4⟩ := h1.judgeLatch n x
    exact ⟨h3, by simp [ends, h2, h4]⟩

theorem takeAnswer (h : Course c s t) (n : LineNo) (k : Command) (outcome : Byte) :
    Course c s (t.takeAnswer n k outcome).1 ∧ Act.loadNotice ∉ (t.takeAnswer n k outcome).2.1 := by
  have hk (count : Byte) : Course c s (t.setLink n ((t.link n).endCommand count)) := h.setLink_of_eq n _ rfl rfl
  unfold State.takeAnswer
  dsimp only
  split
  · exact ⟨hk _, by simp [lastCommandPost, postLine, countPost_no_loadNotice]⟩
  split
  · exact ⟨hk _, by simp [lastCommandPost, postLine, countPost_no_loadNotice]⟩
  · exact ⟨(hk _).useFree, by simp [lastCommandPost, postLine, countPost_no_loadNotice]⟩

theorem judgeAnswer (h : Course c s t) (n : LineNo) (echo outcome : Byte) :
    Course c s (t.judgeAnswer n echo outcome).1 ∧ Act.loadNotice ∉ (t.judgeAnswer n echo outcome).2.1 := by
  unfold State.judgeAnswer
  split
  · split
    · exact h.takeAnswer n _ outcome
    · exact ⟨h, by simp [ends]⟩
  · exact ⟨h, by simp [ends]⟩

theorem takeRequest (h : Course c s t) (n : LineNo) (r : RequestKind) :
    Course c s (t.takeRequest n r).1 ∧ Act.loadNotice ∉ (t.takeRequest n r).2.1 := by
  unfold State.takeRequest
  dsimp only
  split
  · exact ⟨h, by simp [ends]⟩
  · refine ⟨Course.takePending ?_ n, State.takePending_no_loadNotice _ n⟩
    split
    · exact h
    · next hr =>
      refine h.setLink n _ fun hs => ⟨hs.1, ?_⟩
      exact List.nodup_append.mpr ⟨hs.2, by simp, by simpa using fun a ha (e : a = r) => hr (e ▸ ha)⟩

theorem takeStopRequest (h : Course c s t) (n : LineNo) :
    Course c s (t.takeStopRequest n).1 ∧ Act.loadNotice ∉ (t.takeStopRequest n).2.1 := by
  have hk (k : Link) (hf : k.fifo = (t.link n).fifo) (hp : k.pending = []) : Course c s (t.setLink n k) :=
    h.setLink n k fun hs => ⟨hf ▸ hs.1, by rw [hp]; exact List.nodup_nil⟩
  unfold State.takeStopRequest
  dsimp only
  split
  · exact ⟨h, by simp [ends]⟩
  split
  · exact ⟨hk _ rfl rfl, by simp [ends]⟩
  split
  · refine ⟨Course.takeStop (hk _ ?_ ?_) n, State.takeStop_no_loadNotice _ n⟩ <;> rfl
  · exact ⟨hk _ rfl rfl, by simp [ends]⟩

theorem takeRearm (h : Course c s t) (n : LineNo) :
    Course c s (t.takeRearm n).1 ∧ Act.loadNotice ∉ (t.takeRearm n).2.1 := by
  unfold State.takeRearm
  dsimp only
  split
  · exact ⟨h.setLink_of_eq n _ rfl rfl, by simp [ends, latchPost, postLine]⟩
  · refine ⟨Course.useFree (h.setLink_of_eq n _ ?_ ?_), by simp [ends, latchPost, postLine]⟩ <;> rfl

theorem takeAnswerTimeout (h : Course c s t) (n : LineNo) :
    Course c s (t.takeAnswerTimeout n).1 ∧ Act.loadNotice ∉ (t.takeAnswerTimeout n).2.1 := by
  have hk (count : Byte) : Course c s (t.setLink n ((t.link n).endCommand count)) := h.setLink_of_eq n _ rfl rfl
  unfold State.takeAnswerTimeout
  dsimp only
  split
  · exact ⟨h, by simp [ends]⟩
  · split
    · exact ⟨(hk _).useFree, by simp [lastCommandPost, linkStatePost, postLine]⟩
    · exact ⟨h, by simp [ends]⟩

theorem takeRefreshExpiry (h : Course c s t) (n : LineNo) :
    Course c s (t.takeRefreshExpiry n).1 ∧ Act.loadNotice ∉ (t.takeRefreshExpiry n).2.1 := by
  unfold State.takeRefreshExpiry
  dsimp only
  split
  · exact ⟨h.sendRefresh n, by simp [ends]⟩
  · exact ⟨h.setLink_of_eq n _ rfl rfl, by simp [ends]⟩

theorem takeSampleTimeout (h : Course c s t) (n : LineNo) :
    Course c s (t.takeSampleTimeout n).1 ∧ Act.loadNotice ∉ (t.takeSampleTimeout n).2.1 := by
  unfold State.takeSampleTimeout
  dsimp only
  split
  · refine ⟨Course.useFree (h.setLink_of_eq n _ ?_ ?_), by simp [ends, linkStatePost, postLine]⟩ <;> rfl
  · exact ⟨h, by simp [ends]⟩

/-! ### The Alert Controller -/

theorem of_alertRaise (k : AlertClass) (h : exec (.alertRaise k) s = .next t) : Course c s t := by
  simp only [exec, execAlertRaise, Host.Outcome.next.injEq] at h
  subst h
  split
  · exact .refl
  · split
    · exact .refl
    · next rest _ =>
      have h1 : Course c s { s with alert := { s.alert with raises := rest } } := .alert _ .refl id (Nat.le_refl _)
      unfold State.takeRaise
      split
      · exact h1
      · refine Course.operation' ?_ _ _ _ (by simp)
        exact .alert _ h1 id (Nat.le_refl _)

theorem of_ackTimeout (h : exec .ackTimeout s = .next t) : Course c s t := by
  simp only [exec, execAckTimeout, Host.Outcome.next.injEq] at h
  subst h
  split
  · exact .refl
  · split
    · exact .alert { s.alert with ackTimer := .stopped } .refl id (Nat.le_refl _)
    · refine Course.operation' ?_ _ _ _ (by simp)
      exact .alert _ .refl nofun (Nat.le_refl _)

/-- LOAD_NOTICE releases the plant stop where its cause is RESET (R158). -/
theorem of_loadNotice (h : exec .loadNotice s = .next t) : Course .loadNotice s t := by
  simp only [exec, execLoadNotice, Host.Outcome.next.injEq] at h
  subst h
  split
  · exact .refl
  · split
    · exact .refl
    · next k hk =>
      have hle : k ≤ s.alert.loadNotices := by rw [hk]; exact Nat.le_succ k
      unfold State.takeLoadNotice
      dsimp only
      have hposts (a : Bool) (p : Post) : Act.loadNotice ∉ (if a = s.alert.alert then [] else [Act.post p]) := by
        split <;> simp
      split
      · next hps =>
        refine Course.operation' ?_ _ _ _ (by simp [hposts])
        exact .unstop _ .refl (.inl ⟨rfl, hps, by rw [hk]; exact Nat.succ_ne_zero k⟩) rfl hle
      · refine Course.operation' ?_ _ _ _ (hposts _ _)
        exact .alert _ .refl id hle

/-! ### The Report Writer -/

theorem of_report (h : exec .report s = .next t) : Course c s t := by
  simp only [exec, execReport, Host.Outcome.next.injEq] at h
  subst h
  split
  · exact .refl
  · next r rest _ =>
    have h1 : Course c s { s with report := { s.report with handed := rest } } := .report _ .refl id
    unfold State.takeReport
    dsimp only
    split
    · exact Course.raise (.report _ (h1.raise _) (keepReport_length_le _ r)) _
    · exact .report _ (h1.raise _) (keepReport_length_le _ r)

theorem of_ringRecordWrite (h : exec .ringRecordWrite s = .next t) : Course c s t := by
  simp only [exec, execRingRecordWrite, Host.Outcome.next.injEq] at h
  subst h
  split
  · next ring rec rest _ hp =>
    split
    · exact .refl
    · refine Course.operation' ?_ _ _ _ (by simp [recordActs, recordPosts, Report.words])
      refine .report _ .refl fun hl => ?_
      rw [hp, List.length_cons] at hl
      exact Nat.le_of_succ_le hl
  · exact .refl

theorem of_ringPlacement (h : exec .ringPlacement s = .next t) : Course c s t := by
  simp only [exec, execRingPlacement, Host.Outcome.next.injEq] at h
  subst h
  split
  · exact .refl
  · refine Course.operation' ?_ _ _ _ (by simp)
    exact .report { s.report with ring := s.config.image.map ringOf, producer := 0, consumer := 0 }
      (.ring none .refl nofun) id

/-! ### The Configuration Unit -/

theorem rejectLoad (h : Course c s t) (f : LoadFailure) : Course c s (t.rejectLoad f) := by
  refine Course.operation' ?_ _ _ _ (by simp [loadStatePost, guardPost])
  exact .others t.freeCount t.hostData t.port t.jobs t.observations _ h rfl

theorem acceptLoad (h : Course c s t) (i : Vector Word 12) : Course c s (t.acceptLoad i) := by
  unfold State.acceptLoad
  refine Course.operation ?_ _ _ _ fun _ => .inl nofun
  have himage : Course c s { t with config := { t.config with image := some i, load := .loaded, loadImage := none } } :=
    .image _ h nofun
  have hring : ∀ x, t.oldExtent i = some x → x.base % 16 = 0 := by
    intro x hx
    unfold State.oldExtent at hx
    split at hx
    · obtain ⟨j, -, rfl⟩ := Option.map_eq_some_iff.mp hx
      exact Nat.mul_mod_left _ _
    · cases hx
  refine .links _ (.ring (t.oldExtent i) himage hring) fun n => ?_
  unfold State.resyncLinks
  split
  · exact id
  · have hsync : LinkMove (t.link n) (t.link n).newSync := by
      unfold Link.newSync
      split
      · exact id
      · exact .of_eq rfl rfl
    simpa [State.link] using hsync

theorem of_loadJobComplete (h : exec .loadJobComplete s = .next t) : Course c s t := by
  simp only [exec, execLoadJobComplete, Host.Outcome.next.injEq] at h
  subst h
  split
  · exact .refl
  · split
    · exact .refl
    · next k _ =>
      have h1 : Course c s { s with config := { s.config with jobDone := k } } :=
        .others s.freeCount s.hostData s.port s.jobs s.observations _ .refl rfl
      unfold State.endLoad
      split
      · exact h1
      · split
        · exact h1.rejectLoad _
        · exact h1.acceptLoad _

/-! ### HOST_WRITE -/

/-- A write the unit takes itself is not of a part-owned word, or is refused (R6). -/
theorem takeWrite (w : HostWrite) : Course c s (s.takeWrite w) := by
  have hask (hw : classify w.addr ≠ .partOwned) : Course c s { s with cycle := .write w } :=
    .cycle (.write w) s.refusal .refl fun w' hw' => .inl (by cases hw'; rwa [classify_wordAddr])
  unfold State.takeWrite
  split
  · next hcl => exact hask (by rw [hcl]; nofun)
  · next hcl => exact hask (by rw [hcl]; nofun)
  · exact Course.refl.refuseOutright _ _ _
  · exact Course.refl.refuseOutright _ _ _

/-- A full write to a watched word is the command of its row. -/
theorem presentWatched (a : Addr) (v : Word) :
    Course (.hostWrite a v .both) s (s.presentWatched (classify (wordAddr a)) v) := by
  cases hcl : classify (wordAddr a) with
  | below | plain | partOwned => exact .refl
  | guardCommand => exact .presentGuard _ (lowByte v) (by simp only [rowOf, hcl])
  | consumer => exact .presentConsumer v
  | control n => exact .presentControl n _ (lowByte v) (by simp only [rowOf, hcl])
  | setpoint n w => exact .presentSetpoint n w v (setpoint_word_of_classify hcl)

theorem of_hostWrite (a : Addr) (v : Word) (lanes : Lanes) (h : exec (.hostWrite a v lanes) s = .next t) :
    Course (.hostWrite a v lanes) s t := by
  simp only [exec, execHostWrite, Host.Outcome.next.injEq] at h
  subst h
  split
  · next hw =>
    obtain rfl : lanes = .both := by
      simp only [HostWrite.watched, Bool.and_eq_true, beq_iff_eq] at hw
      exact hw.1
    exact .presentWatched a v
  · split
    · exact .takeWrite _
    · exact .refl

/-! ### RESET -/

theorem startUpActs_no_loadNotice (b : Block) : Act.loadNotice ∉ startUpActs b := by
  cases b <;> simp [startUpActs, postLine, guardPost, loadStatePost]

theorem of_reset (order : List Block) (h : exec (.reset order) s = .next t) : Course (.reset order) s t := by
  simp only [exec, execReset, Host.Outcome.next.injEq] at h
  subst h
  generalize startUpOrder order = bs
  have hposts : ∀ (bs : List Block) (t : State), Course (.reset order) s t →
      Course (.reset order) s (bs.foldl (fun t b => t.operate b (startUpActs b) none) t) := by
    intro bs
    induction bs with
    | nil => exact fun t ht => ht
    | cons b rest ih =>
      exact fun t ht => ih _ (ht.operate b _ none fun hm => absurd hm (startUpActs_no_loadNotice b))
  exact hposts bs _ (.reset order rfl)

end Course

/-! ### Every command -/

/-- Every command runs in a course of its own: whatever state it answers is reached by the updates of `Course`. -/
theorem exec_course (c : Instr) (s t : State) (h : exec c s = .next t) : Course c s t := by
  cases c with
  | reset order => exact .of_reset order h
  | tableReaderGrant => exact .of_tableReaderGrant h
  | sample n => exact .of_sample n h
  | rampExpiry n => exact .of_rampExpiry n h
  | dwellExpiry n => exact .of_dwellExpiry n h
  | alertRaise k => exact .of_alertRaise k h
  | ackTimeout => exact .of_ackTimeout h
  | loadNotice => exact .of_loadNotice h
  | report => exact .of_report h
  | ringRecordWrite => exact .of_ringRecordWrite h
  | ringPlacement => exact .of_ringPlacement h
  | loadJobComplete => exact .of_loadJobComplete h
  | hostRead a =>
    cases h
    split
    · unfold State.hostRead
      split
      · exact .others s.freeCount _ s.port s.jobs s.observations s.config .refl rfl
      · exact .cycle (.read _) s.refusal .refl nofun
    · exact .refl
  | hostReadGrant =>
    cases h
    split
    · split
      · next hg => exact .grantRead _ hg
      · exact .refl
    · exact .refl
  | hostWriteGrant =>
    cases h
    split
    · next w hw =>
      split
      · next hg => exact .grantWrite w hg hw
      · exact .refl
    · exact .refl
  | insertQueueDrain =>
    cases h
    split
    · exact .refl
    · next e rest hq =>
      split
      · exact .drainHead rfl hq
      · exact .refl
  | hostWrite a v lanes => exact .of_hostWrite a v lanes h
  | guardNoCommand arg => cases h; exact .presentGuard _ arg rfl
  | acknowledge arg => cases h; exact .presentGuard _ arg rfl
  | stopAll arg => cases h; exact .presentGuard _ arg rfl
  | releaseStop arg => cases h; exact .presentGuard _ arg rfl
  | guardUnknownCommand code arg => cases h; exact .presentGuard code arg rfl
  | loadConfig arg => cases h; exact .presentGuard _ arg rfl
  | consumer v => cases h; exact .presentConsumer v
  | lineNoCommand n arg => cases h; exact .presentControl n _ arg rfl
  | bind n arg => cases h; exact .presentControl n _ arg rfl
  | start n arg => cases h; exact .presentControl n _ arg rfl
  | hold n arg => cases h; exact .presentControl n _ arg rfl
  | resume n arg => cases h; exact .presentControl n _ arg rfl
  | endStage n arg => cases h; exact .presentControl n _ arg rfl
  | release n arg => cases h; exact .presentControl n _ arg rfl
  | resync n arg => cases h; exact .presentControl n _ arg rfl
  | rearmFlags n arg => cases h; exact .presentControl n _ arg rfl
  | lineUnknownCommand n code arg => cases h; exact .presentControl n code arg rfl
  | flowTarget n v => cases h; exact .presentSetpoint n 1 v (by decide)
  | ceilingRequest n v => cases h; exact .presentSetpoint n 2 v (by decide)
  | mixRequest n v => cases h; exact .presentSetpoint n 3 v (by decide)
  | bindCopyComplete n =>
    cases h
    dsimp only
    split
    · exact .refl
    · split
      · exact .refl
      · exact (Course.refl.setMail n _).endBind n _
  | settleExpiry n =>
    cases h
    dsimp only
    split
    · exact .refl
    · exact Course.refl.setLine n _ (.settled _)
  | linkStateChange n =>
    cases h
    dsimp only
    split
    · exact .refl
    · split
      · exact (Course.refl.setMail n _).takeLinkState n _
      · exact .refl
  | unansweredCommand n =>
    cases h
    dsimp only
    split
    · exact .refl
    · split
      · exact (Course.refl.setMail n _).takeUnanswered n _
      · exact .refl
  | refusedLocal n =>
    cases h
    dsimp only
    split
    · exact .refl
    · split
      · exact (Course.refl.setMail n _).takeRefusedLocal n _
      · exact .refl
  | plantStopEvent n cause =>
    cases h
    dsimp only
    split
    · exact .refl
    · split
      · exact .refl
      · exact (Course.refl.setMail n _).takePlantStop n cause
  | holdDemand n =>
    cases h
    dsimp only
    split
    · exact .refl
    · split
      · exact .refl
      · exact (Course.refl.setMail n _).takeDemand n _
  | riseObserved n => cases h; exact .observed n false
  | returnObserved n => cases h; exact .observed n true
  | clockMissing n =>
    cases h
    split
    · refine Course.useFree (Course.hand (Course.refl.setLink_of_eq n _ ?_ ?_) _) <;> rfl
    · exact .refl
  | uplinkClockEdge n =>
    cases h
    dsimp only
    split
    · exact .refl
    · exact Course.refl.setLink_of_eq n _ rfl rfl
  | syncFound n bit =>
    cases h
    dsimp only
    split
    · refine Course.refl.setLink n _ ?_
      unfold Link.takeBit
      dsimp only
      split <;> exact .of_eq rfl rfl
    · exact .refl
  | sync1Character n char =>
    cases h
    dsimp only
    split
    · refine Course.refl.setLink n _ ?_
      unfold Link.takeSync1
      split <;> exact .of_eq rfl rfl
    · exact .refl
  | frameStart n char => cases h; exact .takeBetween n char
  | framingError n char => cases h; exact .takeBetween n char
  | sampleFrame n char =>
    cases h
    dsimp only
    split
    · exact .refl
    split
    · exact Course.refl.setLink_of_eq n _ rfl rfl
    split
    · exact .deliverSample n _
    · exact .badFrame n _
  | answerFrame n char =>
    cases h
    dsimp only
    split
    · exact .refl
    split
    · exact Course.refl.setLink_of_eq n _ rfl rfl
    split
    · exact .deliverAnswer n _ _
    · exact .badFrame n _
  | sampleJudgedAtLink n =>
    cases h
    split
    · exact .takeInput n _ _ fun t ht => ht.judge n _
    · exact .refl
  | answer n =>
    cases h
    split
    · exact .takeInput n _ _ fun t ht => ht.judgeAnswer n _ _
    · exact .refl
  | frameRequest n =>
    cases h
    split
    · exact .takeInput n _ _ fun t ht => ht.takeRequest n _
    · exact .refl
  | stopRequest n =>
    cases h
    split
    · exact .takeInput n _ _ fun t ht => ht.takeStopRequest n
    · exact .refl
  | receiverRestart n =>
    cases h
    split
    · refine .takeInput n _ _ fun t ht => ⟨ht.setLink n _ fun hs => ⟨Nat.zero_le _, hs.2⟩, by simp [ends]⟩
    · exact .refl
  | rearm n =>
    cases h
    split
    · exact .takeInput n _ _ fun t ht => ht.takeRearm n
    · exact .refl
  | frameSent n =>
    cases h
    split
    · exact ((Course.refl.setLink n _ (Link.frameEnded_move _ _ _)).arrive n _).flush n
    · exact .refl
  | answerTimeout n => cases h; exact .takeInput n _ _ fun t ht => ht.takeAnswerTimeout n
  | refreshTimerExpiry n => cases h; exact .takeInput n _ _ fun t ht => ht.takeRefreshExpiry n
  | sampleTimeout n => cases h; exact .takeInput n _ _ fun t ht => ht.takeSampleTimeout n

end Sys2Proof.Machine
end
-- ==== Sys2Proof/Proofs/Invariants.lean ====
section
/-! PROOFS. What every command and every step keeps, each by induction on the course of a command: the canonical memory, the
sizes of the lists, the run count, and PLANT STOP. -/

namespace Sys2Proof.Machine

/-! ### Commands and steps -/

/-- A property that a millisecond and every command keep, and that does not read the command queue, is kept by every step. -/
theorem step_keeps {P : State → Prop} (htick : ∀ s, P s → P s.tick)
    (hpending : ∀ s rest, P s → P { s with pending := rest })
    (hcourse : ∀ c s t, Course c s t → P s → P t) : ∀ s t : State, P s → step s = .next t → P t := by
  intro s t hs h
  unfold step at h
  split at h
  · cases h
    exact htick s hs
  · exact hcourse _ _ _ (exec_course _ _ _ h) (hpending s _ hs)

/-- A CLEAR leaves everything but the Binding Table as it was. -/
theorem State.clearBinding_eq (s : State) (n : LineNo) (st : Option StageNo) :
    s.clearBinding n st = { s with binding := (s.clearBinding n st).binding } := by
  unfold State.clearBinding
  split
  · rfl
  · split
    · split <;> rfl
    · rfl

/-- A CONFIRM leaves everything but the Binding Table as it was. -/
theorem State.confirm_eq (s : State) (n : LineNo) (st : StageNo) :
    s.confirm n st = { s with binding := (s.confirm n st).binding } := by
  unfold State.confirm
  split <;> rfl

section

variable {c : Instr} {s t : State}

/-! ### Memory and the run count -/

theorem Course.canonical (h : Course c s t) (hs : Canonical s) : Canonical t := by
  induction h with
  | refl | reset => exact hs
  | write a v lanes _ _ ih => exact writeLanes_wf _ a v lanes ih
  | accept _ _ _ ih | wait _ _ _ ih | leave _ _ _ ih | pop _ _ ih | count _ _ _ ih | cycle _ _ _ _ ih
  | others _ _ _ _ _ _ _ _ ih | image _ _ _ ih | ring _ _ _ ih | report _ _ _ ih | alert _ _ _ _ ih | notice _ _ ih
  | unstop _ _ _ _ _ ih | links _ _ _ ih | lines _ _ _ ih | inject _ _ _ _ ih | bind _ _ _ _ _ _ ih => exact ih
  | @bound t n st _ _ _ _ ih =>
    rw [t.confirm_eq n st]
    exact ih
  | @vacate t n _ _ _ ih =>
    rw [t.clearBinding_eq n]
    exact ih

theorem Course.runSound (h : Course c s t) (hs : RunSound s) : RunSound t := by
  induction h with
  | refl => exact hs
  | reset | pop => exact Nat.zero_le _
  | count _ _ hr ih => exact hr ih
  | accept _ _ _ ih | wait _ _ _ ih | leave _ _ _ ih | write _ _ _ _ _ ih | cycle _ _ _ _ ih
  | others _ _ _ _ _ _ _ _ ih | image _ _ _ ih | ring _ _ _ ih | report _ _ _ ih | alert _ _ _ _ ih | notice _ _ ih
  | unstop _ _ _ _ _ ih | links _ _ _ ih | lines _ _ _ ih | inject _ _ _ _ ih | bind _ _ _ _ _ _ ih => exact ih
  | @bound t n st _ _ _ _ ih =>
    rw [t.confirm_eq n st]
    exact ih
  | @vacate t n _ _ _ ih =>
    rw [t.clearBinding_eq n]
    exact ih

/-! ### The insert queue and the other lists -/

/-- An accepted post keeps the queue's rules (R23 to R25). -/
theorem QueueSound.accept (hs : QueueSound s) (p : Post) (ht : s.takesPost p = true) : QueueSound (s.accept p) := by
  obtain ⟨hlen, hnd, hon, hoff⟩ := hs
  have hlen' := s.accept_length_le p ht hlen
  have hnd' : ((s.accept p).queue.map Post.addr).Nodup := joinQueue_nodup _ p hnd
  cases hq : queued s.queue p.addr with
  | true =>
    have hl : (s.accept p).queue.length = s.queue.length := joinQueue_length_eq _ p hnd hq
    have hd : (s.accept p).drain = s.drain := by simp [fillsToDrain, hq]
    exact ⟨hlen', hnd', by rwa [hl, hd], by rwa [hl, hd]⟩
  | false =>
    have hl : (s.accept p).queue.length = s.queue.length + 1 := joinQueue_length_not_queued _ p hq
    have hd : (s.accept p).drain = true ↔ s.drain = true ∨ s.queue.length + 1 = Config.drainOnAt := by
      simp [fillsToDrain, hq]
    refine ⟨hlen', hnd', ?_, ?_⟩ <;> rw [hl, hd]
    · intro h12
      exact (Nat.lt_or_eq_of_le h12).imp (fun h => hon (Nat.le_of_lt_succ h)) Eq.symm
    · rintro (h | h)
      · exact Nat.le_succ_of_le (hoff h)
      · rw [h]
        decide

/-- The head's leaving keeps the queue's rules (R23, R27). -/
theorem QueueSound.pop (hs : QueueSound s) {e : Post} {rest : List Post} (hq : s.queue = e :: rest) :
    QueueSound (s.popQueue rest) := by
  obtain ⟨hlen, hnd, hon, hoff⟩ := hs
  rw [hq] at hlen hnd hon hoff
  rw [List.length_cons] at hlen hon hoff
  have hd : (s.popQueue rest).drain = true ↔ s.drain = true ∧ rest.length ≠ Config.drainOffAt := by simp [State.popQueue]
  refine ⟨Nat.le_of_succ_le hlen, hnd.of_cons, ?_, ?_⟩ <;> rw [hd]
  · intro h12
    change Config.drainOnAt ≤ rest.length at h12
    refine ⟨hon (Nat.le_succ_of_le h12), ?_⟩
    unfold Config.drainOnAt Config.drainOffAt at *
    omega
  · rintro ⟨h, hne⟩
    exact Nat.lt_of_le_of_ne (Nat.le_of_succ_le_succ (hoff h)) hne.symm

theorem Course.queueSound (h : Course c s t) (hs : QueueSound s) : QueueSound t := by
  induction h with
  | refl => exact hs
  | reset => exact ⟨Nat.zero_le _, List.nodup_nil, nofun, nofun⟩
  | accept p _ ht ih => exact ih.accept p ht
  | pop _ hq ih => exact ih.pop hq
  | wait _ _ _ ih | leave _ _ _ ih | write _ _ _ _ _ ih | count _ _ _ ih | cycle _ _ _ _ ih
  | others _ _ _ _ _ _ _ _ ih | image _ _ _ ih | ring _ _ _ ih | report _ _ _ ih | alert _ _ _ _ ih | notice _ _ ih
  | unstop _ _ _ _ _ ih | links _ _ _ ih | lines _ _ _ ih | inject _ _ _ _ ih | bind _ _ _ _ _ _ ih => exact ih
  | @bound t n st _ _ _ _ ih =>
    rw [t.confirm_eq n st]
    exact ih
  | @vacate t n _ _ _ ih =>
    rw [t.clearBinding_eq n]
    exact ih

theorem Course.listsSound (h : Course c s t) (hs : ListsSound s) : ListsSound t := by
  induction h with
  | refl => exact hs
  | reset => exact ⟨Nat.zero_le _, fun n => by simp [State.link, State.cleared, Config.fifoCapacity]⟩
  | report _ _ hu ih => exact ⟨hu ih.1, ih.2⟩
  | links _ _ hk ih => exact ⟨ih.1, fun n => hk n (ih.2 n)⟩
  | accept _ _ _ ih | pop _ _ ih | wait _ _ _ ih | leave _ _ _ ih | write _ _ _ _ _ ih | count _ _ _ ih | cycle _ _ _ _ ih
  | others _ _ _ _ _ _ _ _ ih | image _ _ _ ih | ring _ _ _ ih | alert _ _ _ _ ih | notice _ _ ih
  | unstop _ _ _ _ _ ih | lines _ _ _ ih | inject _ _ _ _ ih | bind _ _ _ _ _ _ ih => exact ih
  | @bound t n st _ _ _ _ ih =>
    rw [t.confirm_eq n st]
    exact ih
  | @vacate t n _ _ _ ih =>
    rw [t.clearBinding_eq n]
    exact ih

/-! ### PLANT STOP -/

/-- PLANT STOP, once asserted, is released only on its conditions (R158, R161). -/
theorem Course.releaseHolds (h : Course c s t) (hs : s.alert.plantStop ≠ none) (ht : t.alert.plantStop = none) :
    ReleaseHolds c s := by
  induction h with
  | refl => exact absurd ht hs
  | reset => cases ht
  | unstop _ _ hr => exact hr
  | alert _ _ hp _ ih => exact ih (hp ht)
  | accept _ _ _ ih | pop _ _ ih | wait _ _ _ ih | leave _ _ _ ih | write _ _ _ _ _ ih | count _ _ _ ih | cycle _ _ _ _ ih
  | others _ _ _ _ _ _ _ _ ih | image _ _ _ ih | ring _ _ _ ih | report _ _ _ ih | notice _ _ ih
  | links _ _ _ ih | lines _ _ _ ih | inject _ _ _ _ ih | bind _ _ _ _ _ _ ih => exact ih ht
  | @bound t n st _ _ _ _ ih =>
    rw [t.confirm_eq n st] at ht
    exact ih ht
  | @vacate t n _ _ _ ih =>
    rw [t.clearBinding_eq n] at ht
    exact ih ht

/-- What holds of PLANT STOP in the course of a command while no image is loaded, with where that comes from: no image was
loaded before the command, or the command is RESET. -/
structure StillHeld (c : Instr) (s t : State) : Prop where
  before : s.config.image = none ∨ ∃ order, c = .reset order
  plantStop : t.alert.plantStop ≠ none
  loadNotices : t.alert.loadNotices = 0
  waiting : ∀ w ∈ t.waiting, Act.loadNotice ∉ w.rest

/-- No notice of a load is sent while no image is loaded. -/
theorem StillHeld.no_notice {u : State} (h : StillHeld c s u) (hs : PlantHeld s) (himage : t.config.image = none) :
    ¬ NoticeComes c s t := by
  rintro (hi | ⟨rfl, w, hw, hn⟩)
  · exact hi himage
  · rcases h.before with hb | ⟨order, hc⟩
    · exact (hs hb).2.2 w hw hn
    · cases hc

theorem Course.stillHeld (h : Course c s t) (hs : PlantHeld s) (himage : t.config.image = none) : StillHeld c s t := by
  induction h with
  | refl =>
    obtain ⟨hp, hn, hw⟩ := hs himage
    exact ⟨.inl himage, hp, hn, hw⟩
  | reset order hc => exact ⟨.inr ⟨order, hc⟩, nofun, rfl, nofun⟩
  | image _ _ hi => exact absurd himage hi
  | others _ _ _ _ _ _ _ hcf ih => exact ⟨(ih (hcf ▸ himage)).1, (ih (hcf ▸ himage)).2, (ih (hcf ▸ himage)).3, (ih (hcf ▸ himage)).4⟩
  | wait w _ hn ih =>
    have hh := ih himage
    refine ⟨hh.before, hh.plantStop, hh.loadNotices, fun x hx hl => ?_⟩
    rcases List.mem_append.mp hx with hx | hx
    · exact hh.waiting x hx hl
    · rw [List.mem_singleton.mp hx] at hl
      exact hh.no_notice hs himage (hn hl)
  | leave ws _ hsub ih =>
    have hh := ih himage
    exact ⟨hh.before, hh.plantStop, hh.loadNotices, fun w hw => hh.waiting w (hsub hw)⟩
  | alert a _ hp hn ih =>
    have hh := ih himage
    exact ⟨hh.before, fun e => hh.plantStop (hp e), Nat.le_zero.mp (hh.loadNotices ▸ hn), hh.waiting⟩
  | notice _ hn ih => exact absurd hn ((ih himage).no_notice hs himage)
  | unstop a _ hr hi =>
    have hnone : s.config.image = none := hi ▸ himage
    rcases hr with ⟨-, -, hne⟩ | ⟨-, hne, -⟩
    · exact absurd (hs hnone).2.1 hne
    · exact absurd hnone hne
  | accept _ _ _ ih | pop _ _ ih | write _ _ _ _ _ ih | count _ _ _ ih | cycle _ _ _ _ ih | ring _ _ _ ih | report _ _ _ ih
  | links _ _ _ ih | lines _ _ _ ih | inject _ _ _ _ ih | bind _ _ _ _ _ _ ih =>
    have hh := ih himage
    exact ⟨hh.before, hh.plantStop, hh.loadNotices, hh.waiting⟩
  | @bound t n st _ _ _ _ ih =>
    rw [t.confirm_eq n st] at himage ⊢
    have hh := ih himage
    exact ⟨hh.before, hh.plantStop, hh.loadNotices, hh.waiting⟩
  | @vacate t n _ _ _ ih =>
    rw [t.clearBinding_eq n] at himage ⊢
    have hh := ih himage
    exact ⟨hh.before, hh.plantStop, hh.loadNotices, hh.waiting⟩

theorem Course.plantHeld (h : Course c s t) (hs : PlantHeld s) : PlantHeld t := by
  intro himage
  have hh := h.stillHeld hs himage
  exact ⟨hh.plantStop, hh.loadNotices, hh.waiting⟩

end

/-! ### The statements -/

/-- Settles O54: the RAM is written by whole lanes alone, and a write keeps the canonical form. -/
theorem everyStepKeepsTheMemoryCanonical : Obligations.EveryStepKeepsTheMemoryCanonical := by
  unfold Obligations.EveryStepKeepsTheMemoryCanonical
  exact step_keeps (fun _ h => h) (fun _ _ h => h) fun _ _ _ hc hs => hc.canonical hs

/-- A millisecond leaves the FIFO and PENDING of every link alone. -/
theorem ListsSound.tick {s : State} (h : ListsSound s) : ListsSound s.tick := by
  refine ⟨h.1, fun n => ?_⟩
  have : s.tick.link n = Link.tick (s.clock + 1) (s.link n) := by simp [State.tick, State.link]
  rw [this]
  exact h.2 n

/-- Settles O55: the queue by the acceptance and the leaving of one entry, the lists by the moves of one link. -/
theorem everyStepKeepsTheQueuesWithinTheirRules : Obligations.EveryStepKeepsTheQueuesWithinTheirRules := by
  unfold Obligations.EveryStepKeepsTheQueuesWithinTheirRules
  constructor
  · exact step_keeps (fun _ h => h) (fun _ _ h => h) fun _ _ _ hc hs => hc.queueSound hs
  · exact step_keeps (fun _ h => h.tick) (fun _ _ h => h) fun _ _ _ hc hs => hc.listsSound hs

/-- Settles O58: the invariant by the course of a command, the conditions of a release by the one update that makes it. -/
theorem plantStopIsReleasedOnlyOnItsConditions : Obligations.PlantStopIsReleasedOnlyOnItsConditions := by
  unfold Obligations.PlantStopIsReleasedOnlyOnItsConditions
  constructor
  · exact step_keeps (fun _ h => h) (fun _ _ h => h) fun _ _ _ hc hs => hc.plantHeld hs
  · intro c s t h hs ht
    rcases (exec_course c s t h).releaseHolds hs ht with ⟨hc, hreset, -⟩ | hrelease
    · exact .inl ⟨hc, hreset⟩
    · exact .inr hrelease

end Sys2Proof.Machine
end
-- ==== Sys2Proof/Proofs/LineInvariants.lean ====
section
/-! PROOFS. What every command keeps of the line contexts and the Binding Table: the rules of a line's state (O57), the
correspondence of the table with the lines (O56), and how a line comes to inject and is freed (O60). -/

namespace Sys2Proof.Machine

/-! ### The rules of a line's state -/

theorem minWord_le_right (a b : Word) : minWord a b ≤ b := by
  unfold minWord
  split
  · assumption
  · exact BitVec.le_refl b

theorem zero_le_word (a : Word) : 0 ≤ a := Nat.zero_le a.toNat

theorem LineState.phase_of_admits {st : LineState} (h : st.admits = true) : st.phase = some .bound := by
  cases st with
  | bound | injecting | closing | holding => rfl
  | vacant | binding | ended | tripped => cases h

/-- A line whose stage is open has a copy in force and none being filled. -/
theorem LineSound.open_ {l : Line} (hs : LineSound l) (h : l.state.admits = true) :
    l.copy.isSome = true ∧ ¬ l.filling.isSome = true := by
  obtain ⟨-, -, -, -, -, -, hcopy, hfill, -⟩ := hs
  refine ⟨hcopy.mpr (LineState.phase_of_admits h), fun hf => ?_⟩
  rw [hfill.mp hf] at h
  cases h

/-- R81: the intensity ceiling is given by its formula, which does not exceed a word. -/
theorem Line.intensityAt_toNat (l : Line) (take : Word) :
    (l.intensityAt take).toNat = if take = 0 then (l.stageWord 3).toNat
      else min (l.stageWord 3).toNat (((l.stageWord 10).toNat + 65536 * (l.stageWord 11).toNat) / take.toNat) := by
  unfold Line.intensityAt
  split
  · rfl
  · rw [BitVec.toNat_ofNat]
    exact Nat.mod_eq_of_lt (Nat.lt_of_le_of_lt (Nat.min_le_left _ _) (l.stageWord 3).isLt)

theorem stageWord_congr {l l' : Line} (h : l'.copy = l.copy) (k : Fin 38) : l'.stageWord k = l.stageWord k := by
  unfold Line.stageWord
  rw [h]

theorem LineSound.of_agrees {l l' : Line} (h : l.Agrees l') (hs : LineSound l) : LineSound l' := by
  unfold LineSound Line.maxFlow Line.pmax at *
  simp only [stageWord_congr h.copy]
  rw [h.state, h.copy, h.filling, h.flowTarget, h.admitted, h.ceilingRequest, h.intensityCeiling,
    h.effectiveCeiling, h.take, h.window, h.dwell, h.ramp, h.settle]
  exact hs

/-- Volume, take and ceilings after a meter difference keep the formulas of R81. -/
theorem LineSound.addVolume {l : Line} (hs : LineSound l) (d : Word) : LineSound (l.addVolume d) := by
  obtain ⟨h1, h2, h3, h4, -, -, h7, h8, h9, h10, h11, h12⟩ := hs
  exact ⟨h1, h2, h3, h4, l.intensityAt_toNat _, rfl, h7, h8, h9, h10, h11, h12⟩

theorem LineSound.account {l : Line} (hs : LineSound l) (n : LineNo) (x : Sample) : LineSound (meterStep n l x).1 := by
  have hbase (b : Option Word) : LineSound { l with meterBaseline := b } := hs
  have hacc : LineSound (meterAccount n l x).1 := by
    unfold meterAccount
    split
    · exact hbase _
    · dsimp only
      split
      · exact hbase _
      · exact (hbase _).addVolume _
  exact meterStep_rec (p := fun r => LineSound r.1) hacc hs hs

theorem windowAppend_length_le (w : List (Word × Word)) (p : Word × Word) :
    (windowAppend w p).length ≤ Config.windowSize := by
  simp only [windowAppend, List.length_drop, List.length_append, List.length_singleton]
  omega

/-- A FLOW TARGET write keeps the admitted flow within the target and the target within max flow (R77). -/
theorem LineSound.setFlowTarget {l : Line} (hs : LineSound l) (t : Word) (ht : t ≤ l.maxFlow) :
    LineSound (l.setFlowTarget t) := by
  obtain ⟨h1, h2, h3, h4, h5, h6, h7, h8, h9, h10, h11, h12⟩ := hs
  unfold Line.setFlowTarget
  dsimp only
  split
  · next hf =>
    split
    · exact ⟨by simp [hf], BitVec.le_refl t, ht, h4, h5, h6, h7, h8, nofun, h10, h11, h12⟩
    · next hge =>
      have hle : l.admitted ≤ t := BitVec.not_lt.mp hge
      split
      · exact ⟨h1, hle, ht, h4, h5, h6, h7, h8, nofun, h10, h11, h12⟩
      · next hne => exact ⟨h1, hle, ht, h4, h5, h6, h7, h8, fun _ => ⟨hf, by bv_omega⟩, h10, h11, h12⟩
  · next hf =>
    have hst : l.ramp = .stopped := by
      by_contra hr
      exact hf (h9 hr).1
    exact ⟨h1, by rw [h1 (by simpa using hf)]; exact zero_le_word t, ht, h4, h5, h6, h7, h8, fun hr => absurd hst hr,
      h10, h11, h12⟩

theorem LineMove.sound {l l' : Line} (h : LineMove l l') (hs : LineSound l) : LineSound l' := by
  induction h with
  | agrees h => exact hs.of_agrees h
  | trans _ _ ih ih' => exact ih' (ih hs)
  | account n l x => exact hs.account n x
  | target l v _ => exact hs.setFlowTarget _ (minWord_le_right v _)
  | window l p =>
    obtain ⟨h1, h2, h3, h4, h5, h6, h7, h8, h9, h10, h11, -⟩ := hs
    exact ⟨h1, h2, h3, h4, h5, h6, h7, h8, h9, h10, h11, windowAppend_length_le _ p⟩
  | ceiling l v =>
    obtain ⟨h1, h2, h3, -, h5, -, h7, h8, h9, h10, h11, h12⟩ := hs
    exact ⟨h1, h2, h3, minWord_le_right v _, h5, rfl, h7, h8, h9, h10, h11, h12⟩
  | rampUp l hf =>
    obtain ⟨-, -, h3, h4, h5, h6, h7, h8, -, h10, h11, h12⟩ := hs
    refine ⟨by simp [Line.rampUp, hf], ?_, h3, h4, h5, h6, h7, h8, nofun, h10, h11, h12⟩
    simp only [Line.rampUp, BitVec.le_def, BitVec.toNat_ofNat]
    exact Nat.le_trans (Nat.mod_le _ _) (Nat.min_le_right _ _)
  | restartRamp l =>
    obtain ⟨h1, h2, h3, h4, h5, h6, h7, h8, -, h10, h11, h12⟩ := hs
    refine ⟨h1, h2, h3, h4, h5, h6, h7, h8, fun hr => ?_, h10, h11, h12⟩
    by_contra hc
    exact hr (if_neg hc)
  | settled l =>
    obtain ⟨h1, h2, h3, h4, h5, h6, h7, h8, h9, h10, -, h12⟩ := hs
    exact ⟨h1, h2, h3, h4, h5, h6, h7, h8, h9, h10, nofun, h12⟩
  | hold l r hf =>
    obtain ⟨hc, hno⟩ := hs.open_ (LineState.admits_of_flowing hf)
    obtain ⟨-, -, h3, h4, h5, h6, -, -, -, -, -, h12⟩ := hs
    exact ⟨fun _ => rfl, zero_le_word _, h3, h4, h5, h6, ⟨fun _ => rfl, fun _ => hc⟩, ⟨fun h => absurd h hno, nofun⟩,
      nofun, nofun, fun _ => rfl, h12⟩
  | end_ l r hadm =>
    obtain ⟨hc, hno⟩ := hs.open_ hadm
    obtain ⟨-, -, h3, h4, h5, h6, -, -, -, -, -, h12⟩ := hs
    unfold Line.enterEnded Line.leaveIdle
    split <;>
      exact ⟨fun _ => rfl, zero_le_word _, h3, h4, h5, h6, ⟨fun _ => rfl, fun _ => hc⟩, ⟨fun h => absurd h hno, nofun⟩,
        nofun, nofun, nofun, h12⟩
  | trip l r hadm =>
    obtain ⟨hc, hno⟩ := hs.open_ hadm
    obtain ⟨-, -, h3, h4, h5, h6, -, -, -, -, -, h12⟩ := hs
    unfold Line.enterTripped Line.leaveIdle
    split <;>
      exact ⟨fun _ => rfl, zero_le_word _, h3, h4, h5, h6, ⟨fun _ => rfl, fun _ => hc⟩, ⟨fun h => absurd h hno, nofun⟩,
        nofun, nofun, nofun, h12⟩
  | close l hst =>
    obtain ⟨hc, hno⟩ := hs.open_ (by rw [hst]; rfl)
    obtain ⟨-, h2, h3, h4, h5, h6, -, -, h9, -, h11, h12⟩ := hs
    exact ⟨nofun, h2, h3, h4, h5, h6, ⟨fun _ => rfl, fun _ => hc⟩, ⟨fun h => absurd h hno, nofun⟩,
      fun hr => ⟨rfl, (h9 hr).2⟩, fun _ => rfl, fun h => (by have := h11 h; rw [hst] at this; cases this), h12⟩
  | reopen l hst =>
    obtain ⟨hc, hno⟩ := hs.open_ (by rw [hst]; rfl)
    obtain ⟨-, h2, h3, h4, h5, h6, -, -, h9, -, h11, -⟩ := hs
    exact ⟨nofun, h2, h3, h4, h5, h6, ⟨fun _ => rfl, fun _ => hc⟩, ⟨fun h => absurd h hno, nofun⟩,
      fun hr => ⟨rfl, (h9 hr).2⟩, nofun, fun h => (by have := h11 h; rw [hst] at this; cases this), Nat.zero_le _⟩

/-- START and RESUME: the flow starts at 0, and the ramp timer runs for a target above it (R54). -/
theorem LineSound.inject {l : Line} (hs : LineSound l) (hst : l.state.idleBound = true) : LineSound l.enterInjecting := by
  obtain ⟨hc, hno⟩ := hs.open_ (LineState.admits_of_idleBound hst)
  obtain ⟨-, -, h3, h4, h5, h6, -, -, -, h10, -, -⟩ := hs
  have hdwell : l.dwell = .stopped := by
    by_contra hd
    rw [h10 hd] at hst
    cases hst
  unfold Line.enterInjecting Line.leaveIdle
  rw [if_pos hst]
  refine ⟨nofun, zero_le_word _, h3, h4, h5, h6, ⟨fun _ => rfl, fun _ => hc⟩, ⟨fun h => absurd h hno, nofun⟩,
    fun hr => ⟨rfl, ?_⟩, fun hd => absurd hdwell hd, nofun, Nat.zero_le _⟩
  have hne : l.flowTarget ≠ 0 := fun he => hr (if_pos he)
  change 0 < l.flowTarget
  bv_omega

theorem LineSound.bind {l : Line} (hs : LineSound l) (hst : l.state = .vacant) (st : StageNo) :
    LineSound (l.enterBinding st) := by
  obtain ⟨h1, h2, h3, h4, h5, h6, h7, -, h9, h10, h11, h12⟩ := hs
  rw [hst] at h1 h7 h9 h10 h11
  have hcopy : l.copy = none := by simpa [LineState.phase] using h7
  have hword (k : Fin 38) : (l.enterBinding st).stageWord k = l.stageWord k := stageWord_congr hcopy.symm k
  unfold LineSound Line.maxFlow Line.pmax at *
  simp only [hword]
  exact ⟨h1, h2, h3, h4, h5, h6, ⟨nofun, nofun⟩, ⟨fun _ => rfl, fun _ => rfl⟩, fun h => absurd (h9 h).1 nofun,
    fun h => absurd (h10 h) nofun, fun h => absurd (h11 h) nofun, h12⟩

/-- A validated copy goes in force with the ceilings at Pmax (R50, R72). -/
theorem LineSound.bound (l : Line) (words : Vector Word 38) : LineSound (l.enterBound words) := by
  refine ⟨fun _ => rfl, BitVec.le_refl _, zero_le_word _, BitVec.le_refl _, rfl, ?_, ⟨fun _ => rfl, fun _ => rfl⟩,
    ⟨nofun, nofun⟩, nofun, nofun, fun _ => rfl, Nat.zero_le _⟩
  exact (if_pos (BitVec.le_refl _)).symm

theorem LineSound.vacant (l : Line) (leave : LeaveReason) : LineSound (l.enterVacant leave) :=
  ⟨fun _ => rfl, BitVec.le_refl _, BitVec.le_refl _, BitVec.le_refl _, rfl, rfl, ⟨nofun, nofun⟩, ⟨nofun, nofun⟩, nofun, nofun,
    nofun, Nat.zero_le _⟩

theorem LineSound.default : LineSound {} := LineSound.vacant {} .clear

/-- The rules of every line are kept where one line that keeps its rules is replaced. -/
theorem LinesSound.setLine {s : State} (hs : LinesSound s) (n : LineNo) (l : Line) (hl : LineSound l) :
    LinesSound (s.setLine n l) :=
  forall_getElem_set (R := fun _ => LineSound) s.lines n l hl fun m _ => hs m

theorem Course.linesSound {c : Instr} {s t : State} (h : Course c s t) (hs : LinesSound s) : LinesSound t := by
  induction h with
  | refl => exact hs
  | reset => exact fun n => by simpa [State.line, State.cleared] using LineSound.default
  | lines _ _ hl ih => exact fun n => (hl n).sound (ih n)
  | inject n _ hstart _ ih =>
    refine ih.setLine n _ ((hs n).inject ?_)
    obtain ⟨-, -, -, ⟨hst, -⟩ | ⟨hst, -⟩⟩ := hstart <;> rw [hst] <;> rfl
  | bind n st _ _ hv _ ih => exact LinesSound.setLine (s := State.claim _ n st) ih n _ ((hs n).bind hv st)
  | @bound t n st words _ _ _ ih =>
    rw [t.confirm_eq n st]
    exact LinesSound.setLine (s := { t with binding := _ }) ih n _ (LineSound.bound _ words)
  | @vacate t n leave _ _ ih =>
    rw [t.clearBinding_eq n]
    exact LinesSound.setLine (s := { t with binding := _ }) ih n _ (LineSound.vacant _ leave)
  | accept _ _ _ ih | pop _ _ ih | wait _ _ _ ih | leave _ _ _ ih | write _ _ _ _ _ ih | count _ _ _ ih | cycle _ _ _ _ ih
  | others _ _ _ _ _ _ _ _ ih | image _ _ _ ih | ring _ _ _ ih | report _ _ _ ih | alert _ _ _ _ ih | notice _ _ ih
  | unstop _ _ _ _ _ ih | links _ _ _ ih => exact ih

theorem Timer.tick_ne_stopped {t : Timer} (h : t.tick ≠ .stopped) : t ≠ .stopped := by
  rintro rfl
  exact h rfl

/-- A millisecond starts no timer of a line. -/
theorem LineSound.tick {l : Line} (hs : LineSound l) : LineSound l.tick := by
  obtain ⟨h1, h2, h3, h4, h5, h6, h7, h8, h9, h10, h11, h12⟩ := hs
  exact ⟨h1, h2, h3, h4, h5, h6, h7, h8, fun h => h9 (Timer.tick_ne_stopped h), fun h => h10 (Timer.tick_ne_stopped h),
    fun h => h11 (Timer.tick_ne_stopped h), h12⟩

@[simp] theorem State.line_tick (s : State) (n : LineNo) : s.tick.line n = (s.line n).tick := by
  simp [State.tick, State.line]

/-- Settles O57: every move of a line keeps its rules, and no command does anything else to a line. -/
theorem everyStepKeepsTheRulesOfEveryLine : Obligations.EveryStepKeepsTheRulesOfEveryLine := by
  unfold Obligations.EveryStepKeepsTheRulesOfEveryLine
  refine step_keeps (fun s h n => ?_) (fun _ _ h => h) fun _ _ _ hc hs => hc.linesSound hs
  rw [State.line_tick]
  exact (h n).tick

/-! ### The Binding Table -/

theorem LineState.phase_eq_none_iff (st : LineState) : st.phase = none ↔ st = .vacant := by
  cases st <;> simp [LineState.phase]

/-- A move of a line leaves its stage and its phase as they were. -/
theorem LineMove.stage_phase {l l' : Line} (h : LineMove l l') : l'.stage = l.stage ∧ l'.state.phase = l.state.phase := by
  induction h with
  | agrees h => rw [h.stage, h.state]; exact ⟨rfl, rfl⟩
  | trans _ _ ih ih' => exact ⟨ih'.1.trans ih.1, ih'.2.trans ih.2⟩
  | account n l x =>
    have hacc : (meterAccount n l x).1.stage = l.stage ∧ (meterAccount n l x).1.state = l.state := by
      unfold meterAccount
      split
      · exact ⟨rfl, rfl⟩
      · dsimp only
        split <;> exact ⟨rfl, rfl⟩
    exact meterStep_rec (p := fun r => r.1.stage = l.stage ∧ r.1.state.phase = l.state.phase) ⟨hacc.1, by rw [hacc.2]⟩
      ⟨rfl, rfl⟩ ⟨rfl, rfl⟩
  | window | ceiling | rampUp | restartRamp | settled => exact ⟨rfl, rfl⟩
  | target l v _ =>
    unfold Line.setFlowTarget
    dsimp only
    split
    · split
      · exact ⟨rfl, rfl⟩
      · split <;> exact ⟨rfl, rfl⟩
    · exact ⟨rfl, rfl⟩
  | hold l r hf => exact ⟨rfl, (LineState.phase_of_admits (LineState.admits_of_flowing hf)).symm⟩
  | end_ l r hadm =>
    unfold Line.enterEnded Line.leaveIdle
    split <;> exact ⟨rfl, (LineState.phase_of_admits hadm).symm⟩
  | trip l r hadm =>
    unfold Line.enterTripped Line.leaveIdle
    split <;> exact ⟨rfl, (LineState.phase_of_admits hadm).symm⟩
  | close l hst => exact ⟨rfl, by rw [hst]; rfl⟩
  | reopen l hst => exact ⟨rfl, by rw [hst]; rfl⟩

end Sys2Proof.Machine
end
-- ==== Sys2Proof/Proofs/Correspondence.lean ====
section
/-! PROOFS. The Binding Table and the line contexts stay in correspondence (O56), ENDED and TRIPPED are left and injections
begun only by their commands (O60), the host writes only what it may (O59), and the invariants hold after reset (O53). -/

namespace Sys2Proof.Machine

section

variable {c : Instr} {s t : State}

/-! ### The Binding Table and the lines (R43) -/

/-- The correspondence reads the table and the stage and phase of every line alone. -/
theorem Corresponds.congr {u : State} (hs : Corresponds t) (hb : u.binding = t.binding)
    (hl : ∀ n, (u.line n).stage = (t.line n).stage ∧ (u.line n).state.phase = (t.line n).state.phase) :
    Corresponds u := by
  intro n
  obtain ⟨hstage, hphase⟩ := hl n
  obtain ⟨hfree, hheld⟩ := hs n
  refine ⟨?_, fun st ph => ?_⟩
  · rw [hstage, hfree, ← LineState.phase_eq_none_iff, ← LineState.phase_eq_none_iff, hphase]
  · rw [State.bindingOf, hb, hstage, hphase]
    exact hheld st ph

@[simp] theorem State.bindingOf_setBinding (s : State) (st st' : StageNo) (b : Option Binding) :
    (s.setBinding st b).bindingOf st' = if st' = st then b else s.bindingOf st' := by
  by_cases h : st' = st
  · subst h
    simp [State.setBinding, State.bindingOf]
  · have h' : st.val ≠ st'.val := fun e => h (Fin.ext e.symm)
    simp [State.setBinding, State.bindingOf, h, h']

@[simp] theorem State.line_setLine (s : State) (n m : LineNo) (l : Line) :
    (s.setLine n l).line m = if m = n then l else s.line m := by
  by_cases h : m = n
  · subst h
    simp [State.setLine, State.line]
  · have h' : n.val ≠ m.val := fun e => h (Fin.ext e.symm)
    simp [State.setLine, State.line, h, h']

/-- A line and the entry of its stage change together: the entry was free or the line's, the line had no stage or this one,
and the entry comes to give the line's phase. -/
theorem Corresponds.update (hs : Corresponds t) (n : LineNo) (st : StageNo) (ph : Option Phase) (l : Line)
    (hentry : ∀ b, t.bindingOf st = some b → b.line = n) (hstage : ∀ x, (t.line n).stage = some x → x = st)
    (hl : l.stage = ph.map fun _ => st) (hph : l.state.phase = ph) :
    Corresponds ((t.setBinding st (ph.map fun p => ⟨n, p⟩)).setLine n l) := by
  intro m
  rw [State.line_setLine]
  by_cases hm : m = n
  · subst hm
    rw [if_pos rfl]
    refine ⟨?_, fun x p => ?_⟩
    · rw [← LineState.phase_eq_none_iff, hl, hph]
      simp
    · change (State.setBinding t st _).bindingOf x = _ ↔ _
      rw [State.bindingOf_setBinding, hl, hph]
      by_cases hx : x = st
      · subst hx
        cases ph <;> simp
      · rw [if_neg hx]
        constructor
        · intro h
          exact absurd (hstage x ((hs m).2 x p |>.mp h).1) hx
        · rintro ⟨h, -⟩
          cases ph with
          | none => cases h
          | some _ => exact absurd (Option.some.inj h).symm hx
  · rw [if_neg hm]
    refine ⟨(hs m).1, fun x p => ?_⟩
    change (State.setBinding t st _).bindingOf x = _ ↔ _
    rw [State.bindingOf_setBinding]
    by_cases hx : x = st
    · subst hx
      rw [if_pos rfl]
      refine Iff.trans ?_ ((hs m).2 x p)
      constructor
      · intro h
        cases ph with
        | none => cases h
        | some q => exact absurd (congrArg Binding.line (Option.some.inj h)).symm hm
      · intro h
        exact absurd (hentry _ h) hm
    · rw [if_neg hx]
      exact (hs m).2 x p

/-- The entry of a line's stage holds that line, in the phase of its state. -/
theorem Corresponds.entry (hs : Corresponds t) {n : LineNo} {st : StageNo} (hst : (t.line n).stage = some st) :
    ∃ p, (t.line n).state.phase = some p ∧ t.bindingOf st = some ⟨n, p⟩ := by
  obtain ⟨hfree, hheld⟩ := hs n
  cases hp : (t.line n).state.phase with
  | none =>
    rw [hfree.mpr ((LineState.phase_eq_none_iff _).mp hp)] at hst
    cases hst
  | some p => exact ⟨p, rfl, (hheld st p).mpr ⟨hst, hp⟩⟩

theorem Course.corresponds (h : Course c s t) (hs : Corresponds s) : Corresponds t := by
  induction h with
  | refl => exact hs
  | reset =>
    have hline (n : LineNo) : State.line
        { State.cleared with pending := s.pending, mem := s.mem, freeCount := s.freeCount } n = {} := by
      simp [State.line, State.cleared]
    intro n
    rw [hline]
    refine ⟨⟨fun _ => rfl, fun _ => rfl⟩, fun st ph => ?_⟩
    simp [State.bindingOf, State.cleared]
  | lines _ _ hl ih => exact ih.congr rfl fun n => (hl n).stage_phase
  | @inject t n _ hstart heq ih =>
    refine ih.congr rfl fun m => ?_
    rw [State.line_setLine]
    by_cases hm : m = n
    · rw [if_pos hm, hm, heq]
      have hadm : (s.line n).state.phase = some .bound := by
        obtain ⟨-, -, -, ⟨hst, -⟩ | ⟨hst, -⟩⟩ := hstart <;> rw [hst] <;> rfl
      rw [hadm]
      unfold Line.enterInjecting Line.leaveIdle
      split <;> exact ⟨rfl, rfl⟩
    · rw [if_neg hm]
      exact ⟨rfl, rfl⟩
  | @bind t n st _ heq hv hfree ih =>
    refine ih.update n st (some .binding) _ (fun b hb => by rw [hfree] at hb; cases hb) (fun x hx => ?_) rfl rfl
    rw [(ih n).1.mpr (by rw [heq, hv])] at hx
    cases hx
  | @bound t n st words _ hst hstage ih =>
    obtain ⟨p, hp, hentry⟩ := ih.entry hstage
    rw [hst] at hp
    cases hp
    unfold State.confirm
    rw [if_pos hentry]
    refine ih.update n st (some .bound) _ (fun b hb => ?_) (fun x hx => ?_) hstage rfl
    · rw [hentry] at hb
      cases hb
      rfl
    · rw [hstage] at hx
      exact (Option.some.inj hx).symm
  | @vacate t n leave _ _ ih =>
    unfold State.clearBinding
    cases hstage : (t.line n).stage with
    | none =>
      refine ih.congr rfl fun m => ?_
      rw [State.line_setLine]
      by_cases hm : m = n
      · rw [if_pos hm, hm, hstage, (ih n).1.mp hstage]
        exact ⟨rfl, rfl⟩
      · rw [if_neg hm]
        exact ⟨rfl, rfl⟩
    | some st =>
      obtain ⟨p, -, hentry⟩ := ih.entry hstage
      simp only [hentry, if_true]
      refine ih.update n st none _ (fun b hb => ?_) (fun x hx => ?_) rfl rfl
      · rw [hentry] at hb
        cases hb
        rfl
      · rw [hstage] at hx
        exact (Option.some.inj hx).symm
  | accept _ _ _ ih | pop _ _ ih | wait _ _ _ ih | leave _ _ _ ih | write _ _ _ _ _ ih | count _ _ _ ih | cycle _ _ _ _ ih
  | others _ _ _ _ _ _ _ _ ih | image _ _ _ ih | ring _ _ _ ih | report _ _ _ ih | alert _ _ _ _ ih | notice _ _ ih
  | unstop _ _ _ _ _ ih | links _ _ _ ih => exact ih

/-! ### Ends, trips and injections (section 4.2) -/

/-- A move of a line keeps ENDED, TRIPPED and VACANT, and starts no injection. -/
theorem LineMove.still {l l' : Line} (h : LineMove l l') :
    (l.state.admits = false → l'.state = l.state) ∧ (l'.state.flowing = true → l.state.flowing = true) := by
  have same {l l' : Line} (h : l'.state = l.state) :
      (l.state.admits = false → l'.state = l.state) ∧ (l'.state.flowing = true → l.state.flowing = true) :=
    ⟨fun _ => h, fun hf => h ▸ hf⟩
  have entry {l l' : Line} (hadm : l.state.admits = true) (hno : l'.state.flowing = false) :
      (l.state.admits = false → l'.state = l.state) ∧ (l'.state.flowing = true → l.state.flowing = true) :=
    ⟨fun h => absurd (hadm.symm.trans h) nofun, fun h => absurd (hno.symm.trans h) nofun⟩
  induction h with
  | agrees h => exact same h.state
  | trans _ _ ih ih' =>
    refine ⟨fun h => ?_, fun h => ih.2 (ih'.2 h)⟩
    have h1 := ih.1 h
    exact (ih'.1 (h1 ▸ h)).trans h1
  | account n l x =>
    have hacc : (meterAccount n l x).1.state = l.state := by
      unfold meterAccount
      split
      · rfl
      · dsimp only
        split <;> rfl
    exact same (meterStep_rec (p := fun r => r.1.state = l.state) hacc rfl rfl)
  | window | ceiling | rampUp | restartRamp | settled => exact same rfl
  | target l v _ =>
    refine same ?_
    unfold Line.setFlowTarget
    dsimp only
    split
    · split
      · rfl
      · split <;> rfl
    · rfl
  | hold l r hf => exact entry (LineState.admits_of_flowing hf) rfl
  | end_ l r hadm => exact entry hadm (by unfold Line.enterEnded; rfl)
  | trip l r hadm => exact entry hadm (by unfold Line.enterTripped; rfl)
  | close l hst => exact ⟨fun h => (by rw [hst] at h; cases h), fun _ => by rw [hst]; rfl⟩
  | reopen l hst => exact ⟨fun h => (by rw [hst] at h; cases h), fun _ => by rw [hst]; rfl⟩

/-- What a command may make of line n, as the state in its course gives it: a line ENDED or TRIPPED stays so or is freed by
RELEASE or RESET, and a line injects that did before or that a command starts. -/
structure Freed (c : Instr) (s t : State) (n : LineNo) : Prop where
  out : (s.line n).state = .ended ∨ (s.line n).state = .tripped →
    (t.line n).state = (s.line n).state ∨
      (t.line n).state = .vacant ∧ ((∃ arg, rowOf c = .release n arg) ∨ ∃ order, c = .reset order)
  inject : (s.line n).state.flowing = false → (t.line n).state.flowing = true → StartHolds c s n

/-- A line that was ENDED or TRIPPED before a command is open at no point of its course. -/
theorem Freed.not_admits {n : LineNo} (h : Freed c s t n) (hs : (s.line n).state = .ended ∨ (s.line n).state = .tripped) :
    (t.line n).state.admits = false ∧ (t.line n).state ≠ .binding := by
  rcases h.out hs with he | ⟨hv, -⟩
  · rw [he]
    rcases hs with hs | hs <;> rw [hs] <;> exact ⟨rfl, nofun⟩
  · rw [hv]
    exact ⟨rfl, nofun⟩

/-- The state of line n is left as it was, where another line changes. -/
theorem Freed.setLine {n m : LineNo} {l : Line} {u : State} (h : Freed c s t n) (hu : u.lines = t.lines)
    (hl : m = n → Freed c s (u.setLine m l) n) : Freed c s (u.setLine m l) n := by
  by_cases hm : m = n
  · exact hl hm
  · have hline : (u.setLine m l).line n = t.line n := by
      rw [State.line_setLine, if_neg (Ne.symm hm), State.line, hu, State.line]
    exact ⟨hline ▸ h.out, hline ▸ h.inject⟩

theorem Course.freed (h : Course c s t) (n : LineNo) : Freed c s t n := by
  induction h with
  | refl => exact ⟨fun _ => .inl rfl, fun h h' => by rw [h] at h'; cases h'⟩
  | reset order hc =>
    have hline : State.line
        { State.cleared with pending := s.pending, mem := s.mem, freeCount := s.freeCount } n = {} := by
      simp [State.line, State.cleared]
    constructor <;> rw [hline]
    · exact fun _ => .inr ⟨rfl, .inr ⟨order, hc⟩⟩
    · exact nofun
  | @lines t ls _ hl ih =>
    obtain ⟨hsame, hflow⟩ := (hl n).still
    refine ⟨fun hs => ?_, fun h h' => ih.inject h (hflow h')⟩
    change (ls[n]).state = _ ∨ (ls[n]).state = _ ∧ _
    rw [hsame (ih.not_admits hs).1]
    exact ih.out hs
  | @inject t m _ hstart _ ih =>
    refine ih.setLine rfl fun hm => ?_
    subst hm
    refine ⟨fun hs => ?_, fun _ _ => hstart⟩
    obtain ⟨-, -, -, ⟨hst, -⟩ | ⟨hst, -⟩⟩ := hstart <;> rw [hst] at hs <;> rcases hs with hs | hs <;> cases hs
  | @bind t m st _ _ hv _ ih =>
    refine ih.setLine rfl fun hm => ?_
    subst hm
    refine ⟨fun hs => ?_, ?_⟩
    · rw [hv] at hs
      rcases hs with hs | hs <;> cases hs
    · rw [State.line_setLine, if_pos rfl]
      exact nofun
  | @bound t m st words _ hst _ ih =>
    rw [t.confirm_eq m st]
    refine Freed.setLine (u := { t with binding := _ }) ih rfl fun hm => ?_
    subst hm
    refine ⟨fun hs => absurd hst (ih.not_admits hs).2, ?_⟩
    rw [State.line_setLine, if_pos rfl]
    exact nofun
  | @vacate t m leave _ hfrom ih =>
    rw [t.clearBinding_eq m]
    refine Freed.setLine (u := { t with binding := _ }) ih rfl fun hm => ?_
    subst hm
    constructor <;> rw [State.line_setLine, if_pos rfl]
    · intro hs
      exact .inr ⟨rfl, .inl (hfrom.resolve_left (ih.not_admits hs).2)⟩
    · exact nofun
  | accept _ _ _ ih | pop _ _ ih | wait _ _ _ ih | leave _ _ _ ih | write _ _ _ _ _ ih | count _ _ _ ih | cycle _ _ _ _ ih
  | others _ _ _ _ _ _ _ _ ih | image _ _ _ ih | ring _ _ _ ih | report _ _ _ ih | alert _ _ _ _ ih | notice _ _ ih
  | unstop _ _ _ _ _ ih | links _ _ _ ih => exact ⟨ih.out, ih.inject⟩

/-! ### What the host writes (R3, R6 to R8) -/

theorem Course.hostSound (h : Course c s t) (hs : HostSound s) : HostSound t := by
  induction h with
  | refl => exact hs
  | reset => exact ⟨nofun, nofun⟩
  | cycle cy rf _ hcy ih =>
    refine ⟨fun w hw => ?_, ih.2⟩
    rcases hcy w hw with h | ⟨w', hw', ha⟩
    · exact h
    · exact ha ▸ ih.1 w' hw'
  | ring r _ hr ih => exact ⟨ih.1, hr⟩
  | accept _ _ _ ih | pop _ _ ih | wait _ _ _ ih | leave _ _ _ ih | write _ _ _ _ _ ih | count _ _ _ ih
  | others _ _ _ _ _ _ _ _ ih | image _ _ _ ih | report _ _ _ ih | alert _ _ _ _ ih | notice _ _ ih
  | unstop _ _ _ _ _ ih | links _ _ _ ih | lines _ _ _ ih | inject _ _ _ _ ih | bind _ _ _ _ _ _ ih => exact ih
  | @bound t n st _ _ _ _ ih =>
    rw [t.confirm_eq n st]
    exact ih
  | @vacate t n _ _ _ ih =>
    rw [t.clearBinding_eq n]
    exact ih

theorem Ring.contains_wordAddr {r : Ring} (h : r.base % 16 = 0) (a : Addr) :
    r.contains (wordAddr a).toNat = r.contains a.toNat := by
  unfold Ring.contains
  rw [wordAddr_toNat, Bool.eq_iff_iff]
  simp only [Bool.and_eq_true, decide_eq_true_eq]
  omega

/-- Both bytes of a word are in the Ring class or neither is. -/
theorem State.ringClass_wordAddr (hs : HostSound s) (a : Addr) : s.ringClass (wordAddr a) = s.ringClass a := by
  unfold State.ringClass
  congr 1
  · split
    · exact Ring.contains_wordAddr (Nat.mul_mod_left _ _) a
    · rfl
  · split
    · next r hr => exact Ring.contains_wordAddr (hs.2 r hr) a
    · rfl

theorem State.tableBase_mod {b : Nat} (h : s.tableBase = some b) : b % 2048 = 0 := by
  unfold State.tableBase tableOf at h
  obtain ⟨i, -, hi⟩ := Option.bind_eq_some_iff.mp h
  split at hi
  · cases hi
  · cases hi
    exact Nat.mul_mod_left _ _

/-- Both bytes of a word are of one stage's record or of none. -/
theorem State.stageOf_wordAddr (s : State) (a : Addr) : s.stageOf (wordAddr a) = s.stageOf a := by
  unfold State.stageOf
  rw [wordAddr_toNat]
  split
  · rfl
  · next b hb =>
    have hmod := State.tableBase_mod hb
    have hin : (b ≤ a.toNat - a.toNat % 2 ∧ a.toNat - a.toNat % 2 < b + 6144) ↔ (b ≤ a.toNat ∧ a.toNat < b + 6144) := by
      omega
    have hdiv : (a.toNat - a.toNat % 2 - b) / 96 = (a.toNat - b) / 96 := by omega
    simp only [hin, hdiv]

theorem State.refusedAtGrant_wordAddr (hs : HostSound s) (a : Addr) :
    s.refusedAtGrant (wordAddr a) = s.refusedAtGrant a := by
  unfold State.refusedAtGrant
  rw [classify_wordAddr, State.ringClass_wordAddr hs, State.stageOf_wordAddr]

/-- A byte of another word is left alone (R5). -/
theorem writeLanes_get_other (m : List Host.Cell) {a b : Addr} (v : Word) (lanes : Lanes) (h : wordAddr a ≠ wordAddr b) :
    Memory.get (writeLanes m b v lanes) a.toNat = Memory.get m a.toNat := by
  have hval : a.toNat - a.toNat % 2 ≠ b.toNat - b.toNat % 2 := by
    rw [← wordAddr_toNat, ← wordAddr_toNat]
    exact fun e => h (BitVec.eq_of_toNat_eq e)
  have hlow : a.toNat ≠ (wordAddr b).toNat := by rw [wordAddr_toNat]; omega
  have hhigh : a.toNat ≠ (wordAddr b).toNat + 1 := by rw [wordAddr_toNat]; omega
  cases lanes with
  | low => exact Memory.get_set_other m _ hlow
  | high => exact Memory.get_set_other m _ hhigh
  | both => exact (Memory.get_set_other _ _ hhigh).trans (Memory.get_set_other m _ hlow)

/-- A byte that the host may not write: of a part-owned word, of the Ring class or of the record of a held stage. -/
def State.closedToHost (s : State) (a : Addr) : Prop :=
  classify (wordAddr a) = .partOwned ∨
    (classify (wordAddr a) = .below ∧ s.ringClass a = true) ∨
    (classify (wordAddr a) = .below ∧ ∃ st, s.stageOf a = some st ∧ s.bindingOf st ≠ none)

/-- A write that a grant lets through is to no such byte. -/
theorem State.not_closedToHost_of_grant (hs : HostSound s) {w : HostWrite} (hw : s.cycle = .write w)
    (hr : s.refusedAtGrant w.addr = none) {a : Addr} (ha : wordAddr a = wordAddr w.addr) : ¬ s.closedToHost a := by
  have hr' : s.refusedAtGrant a = none := by
    rw [← State.refusedAtGrant_wordAddr hs, ha, State.refusedAtGrant_wordAddr hs, hr]
  unfold State.refusedAtGrant at hr'
  rintro (hp | ⟨hb, hring⟩ | ⟨hb, st, hst, hheld⟩)
  · exact hs.1 w (by rw [hw]; rfl) (ha ▸ hp)
  · rw [classify_wordAddr] at hb
    simp [hb, hring] at hr'
  · rw [classify_wordAddr] at hb
    simp only [hb, ne_eq, not_true, if_false, hst, hheld] at hr'
    split at hr' <;> cases hr'

/-- No command but a drain changes such a byte. -/
theorem Course.get_of_closedToHost (h : Course c s t) (hs : HostSound s) (hc : c ≠ .insertQueueDrain) {a : Addr}
    (ha : s.closedToHost a) : Memory.get t.mem a.toNat = Memory.get s.mem a.toNat := by
  induction h with
  | refl | reset => rfl
  | write b v lanes _ hw ih =>
    rcases hw with hd | ⟨w, hcy, rfl, hr⟩
    · exact absurd hd hc
    · exact (writeLanes_get_other _ v lanes fun e => State.not_closedToHost_of_grant hs hcy hr e ha).trans ih
  | accept _ _ _ ih | pop _ _ ih | wait _ _ _ ih | leave _ _ _ ih | count _ _ _ ih | cycle _ _ _ _ ih
  | others _ _ _ _ _ _ _ _ ih | image _ _ _ ih | ring _ _ _ ih | report _ _ _ ih | alert _ _ _ _ ih | notice _ _ ih
  | unstop _ _ _ _ _ ih | links _ _ _ ih | lines _ _ _ ih | inject _ _ _ _ ih | bind _ _ _ _ _ _ ih => exact ih
  | @bound t n st _ _ _ _ ih =>
    rw [t.confirm_eq n st]
    exact ih
  | @vacate t n _ _ _ ih =>
    rw [t.clearBinding_eq n]
    exact ih

end

/-! ### The statements -/

/-- Settles O56: the line and the entry of its stage change together. -/
theorem everyStepKeepsTheBindingTableCorresponding : Obligations.EveryStepKeepsTheBindingTableCorresponding := by
  unfold Obligations.EveryStepKeepsTheBindingTableCorresponding
  refine step_keeps (fun s h => h.congr rfl fun n => ?_) (fun _ _ h => h) fun _ _ _ hc hs => hc.corresponds hs
  rw [State.line_tick]
  exact ⟨rfl, rfl⟩

/-- Settles O60: by the course of a command, at each state of which the line is still out of flow or was started. -/
theorem aLineInjectsAndIsFreedOnlyByItsCommands : Obligations.ALineInjectsAndIsFreedOnlyByItsCommands := by
  unfold Obligations.ALineInjectsAndIsFreedOnlyByItsCommands
  intro c n s t h
  obtain ⟨hout, hinject⟩ := (exec_course c s t h).freed n
  exact ⟨hout, hinject⟩

/-- Settles O59: the RAM is written by a drain and by a granted host write alone, and a grant is refused for each byte of the
closed words. -/
theorem theHostWritesOnlyWhatItMay : Obligations.TheHostWritesOnlyWhatItMay := by
  unfold Obligations.TheHostWritesOnlyWhatItMay
  intro c s t hs h
  have hc := exec_course c s t h
  exact ⟨hc.hostSound hs, fun hd a ha => hc.get_of_closedToHost hs hd ha⟩

/-- Settles O53: RESET makes the reset state of the cleared machine, where the invariants hold, and each is kept in the
course of a command. -/
theorem theInvariantsHoldAfterReset : Obligations.TheInvariantsHoldAfterReset := by
  unfold Obligations.TheInvariantsHoldAfterReset
  have hexec : exec (.reset []) State.cleared = .next State.reset := rfl
  have hc := exec_course _ _ _ hexec
  have hcorr : Corresponds State.cleared := fun n => by
    have hline : State.cleared.line n = {} := by simp [State.line, State.cleared]
    rw [hline]
    exact ⟨⟨fun _ => rfl, fun _ => rfl⟩, fun st ph => by simp [State.bindingOf, State.cleared]⟩
  refine ⟨hexec, hc.canonical rfl, hc.queueSound ⟨Nat.zero_le _, List.nodup_nil, nofun, nofun⟩, hc.runSound (Nat.zero_le _),
    hc.listsSound ⟨Nat.zero_le _, fun n => ?_⟩, hc.corresponds hcorr, hc.linesSound fun n => ?_, hc.plantHeld ?_,
    hc.hostSound ⟨nofun, nofun⟩⟩
  · simp [State.link, State.cleared, Config.fifoCapacity]
  · simpa [State.line, State.cleared] using LineSound.default
  · exact fun _ => ⟨nofun, rfl, nofun⟩

end Sys2Proof.Machine
end
-- ==== Sys2Proof/Proofs/Operating.lean ====
section
/-! PROOFS. An operation of each block with room for its posts, and a watched write presented on an idle bus: what the
statements about single commands begin with. -/

namespace Sys2Proof.Machine

variable {s : State}

/-! ### Operations with room -/

theorem State.operation_alert (acts : List Act) (h : s.room (postCount acts)) :
    s.operation .alert acts = acts.foldl State.perform s := s.operate_of_room _ _ h

/-- Nothing follows the operation of a supervisor that answers no setpoint as refused. -/
theorem State.react_of_not_answered (h : ∀ w v r b, s.cycle ≠ .answered w v r b) : s.react = s := by
  unfold State.react
  split
  · next w v r b hc => exact absurd hc (h w v r b)
  · rfl

theorem State.operation_line (n : LineNo) (acts : List Act) (h : s.room (postCount acts))
    (hc : ∀ w v r b, (acts.foldl State.perform s).cycle ≠ .answered w v r b) :
    s.operation (.line n) acts = acts.foldl State.perform s := by
  change State.react _ = _
  rw [s.operate_of_room _ _ h, State.react_of_not_answered hc]

/-- The same for an operation without posts, whatever the queue holds. -/
theorem State.operation_line_noPosts (n : LineNo) (acts : List Act) (h : ∀ a ∈ acts, a.isPost = false)
    (hc : ∀ w v r b, (acts.foldl State.perform s).cycle ≠ .answered w v r b) :
    s.operation (.line n) acts = acts.foldl State.perform s := by
  change State.react _ = _
  rw [s.operate_without_posts _ _ h, State.react_of_not_answered hc]

/-- No controller has an event of its own to take. -/
theorem State.flushAll_of_noOwn (h : ∀ n, s.noOwn n) : s.flushAll = s := by
  unfold State.flushAll
  rw [s.flush_of_noOwn 0 (h 0), s.flush_of_noOwn 1 (h 1), s.flush_of_noOwn 2 (h 2), s.flush_of_noOwn 3 (h 3),
    s.flush_of_noOwn 4 (h 4), s.flush_of_noOwn 5 (h 5), s.flush_of_noOwn 6 (h 6), s.flush_of_noOwn 7 (h 7)]

theorem State.refuseOutright_of_room (h : s.room 3) (w : HostWrite) (r : RefuseReason) (st : Byte) :
    s.refuseOutright w r st =
      State.postAll
        { s with
          cycle := .idle
          refusal := ⟨some r, w.addr⟩
          report := s.reported (writeRefusedReport w r st s.clock) }
        (refusalWords w.addr r) :=
  State.operate_of_room _ _ _ h

/-! ### Posts apart from the other acts

No act but a post reads the insert queue, so the posts of an operation may be taken after its other acts. -/

/-- The acts that are no posts, in order. -/
def othersOf (acts : List Act) : List Act := acts.filter fun a => !a.isPost

theorem postsOf_append (l l' : List Act) : postsOf (l ++ l') = postsOf l ++ postsOf l' := List.filterMap_append

theorem othersOf_append (l l' : List Act) : othersOf (l ++ l') = othersOf l ++ othersOf l' := List.filter_append ..

theorem postCount_eq (acts : List Act) : postCount acts = (postsOf acts).length := by
  induction acts with
  | nil => rfl
  | cons a rest ih =>
    unfold postCount postsOf at *
    cases a with
    | post p => exact congrArg Nat.succ ih
    | hand | request | requestCeiling | restartRamp | stop | restart | rearm | observe | plantStop | tell | answer | ask
    | recordPosted | loadNotice | loadEnded | notifyLinks | enterStop | setProducer | recordWritten | placed => exact ih

theorem State.requestCeiling_accept (s : State) (n : LineNo) (p : Post) :
    (s.accept p).requestCeiling n = (s.requestCeiling n).accept p := by
  unfold State.requestCeiling
  by_cases h : ((s.line n).state.flowing && (s.line n).effectiveCeiling != (s.line n).lastSentCeiling) = true
  · rw [if_pos h]
    exact if_pos h
  · rw [if_neg h]
    exact if_neg h

theorem State.recordWritten_accept (s : State) (p : Post) : (s.accept p).recordWritten = s.recordWritten.accept p := by
  cases hr : s.report.ring with
  | none =>
    simp only [State.recordWritten, State.accept_report, hr]
    rfl
  | some r =>
    by_cases h : fillMark r.size ≤ modDiff r.size s.report.producer s.report.consumer
    · simp only [State.recordWritten, State.accept_report, hr, if_pos h]
      rfl
    · simp only [State.recordWritten, State.accept_report, hr, if_neg h]
      rfl

theorem State.perform_accept (s : State) (a : Act) (p : Post) (h : a.isPost = false) :
    (s.accept p).perform a = (s.perform a).accept p := by
  cases a with
  | post q => cases h
  | answer v r st =>
    simp only [State.perform, State.accept_cycle]
    cases s.cycle with
    | taken w => cases r <;> rfl
    | _ => rfl
  | ask | recordPosted => simp only [State.perform, State.accept_cycle]; cases s.cycle <;> rfl
  | recordWritten => exact s.recordWritten_accept p
  | requestCeiling n => exact s.requestCeiling_accept n p
  | hand | request | restartRamp | stop | restart | rearm | observe | plantStop | tell | loadNotice | loadEnded
  | notifyLinks | enterStop | setProducer | placed => rfl

theorem State.foldl_perform_accept (s : State) (acts : List Act) (p : Post) (h : ∀ a ∈ acts, a.isPost = false) :
    acts.foldl State.perform (s.accept p) = (acts.foldl State.perform s).accept p := by
  induction acts generalizing s with
  | nil => rfl
  | cons a rest ih =>
    rw [List.foldl_cons, List.foldl_cons, s.perform_accept a p (h a List.mem_cons_self)]
    exact ih _ fun x hx => h x (List.mem_cons_of_mem _ hx)

theorem Act.eq_post_of_isPost {a : Act} (h : a.isPost = true) : ∃ p, a = .post p := by
  cases a with
  | post p => exact ⟨p, rfl⟩
  | _ => cases h

theorem postsOf_cons_of_not_post {a : Act} (h : a.isPost = false) (rest : List Act) : postsOf (a :: rest) = postsOf rest := by
  cases a with
  | post p => cases h
  | _ => rfl

/-- The acts of an operation are its other acts and then its posts. -/
theorem State.foldl_perform_eq (s : State) (acts : List Act) :
    acts.foldl State.perform s = ((othersOf acts).foldl State.perform s).postAll (postsOf acts) := by
  induction acts generalizing s with
  | nil => rfl
  | cons a rest ih =>
    rw [List.foldl_cons, ih]
    cases h : a.isPost with
    | true =>
      obtain ⟨p, rfl⟩ := Act.eq_post_of_isPost h
      change State.postAll ((othersOf rest).foldl State.perform (s.accept p)) _ = _
      rw [s.foldl_perform_accept (othersOf rest) p fun x hx => by simpa using (List.mem_filter.mp hx).2]
      rfl
    | false =>
      have hothers : othersOf (a :: rest) = a :: othersOf rest := by simp [othersOf, h]
      rw [postsOf_cons_of_not_post h, hothers, List.foldl_cons]

/-- Posts leave all but the queue and drain mode as it is. -/
theorem State.postAll_cycle (s : State) (ps : List Post) : (s.postAll ps).cycle = s.cycle := by
  unfold State.postAll
  induction ps generalizing s with
  | nil => rfl
  | cons p rest ih => exact ih (s.accept p)

/-- A supervisor's operation with room for its posts: the other acts, and then the posts. -/
theorem State.operation_line_eq (n : LineNo) (acts : List Act) (h : s.room (postsOf acts).length)
    (hc : ∀ w v r b, ((othersOf acts).foldl State.perform s).cycle ≠ .answered w v r b) :
    s.operation (.line n) acts = ((othersOf acts).foldl State.perform s).postAll (postsOf acts) := by
  rw [← s.foldl_perform_eq]
  refine State.operation_line n acts (postCount_eq acts ▸ h) ?_
  rw [s.foldl_perform_eq, State.postAll_cycle]
  exact hc

/-! ### Watched writes on an idle bus (R1, R9, R10) -/

/-- The state in which an owner takes a full write. -/
def State.taking (s : State) (a : Addr) (v : Word) : State := { s with cycle := .taken (fullWrite a v) }

theorem State.presentGuard_of_idle (hc : s.cycle = .idle) (code arg : Byte) (hcode : code ≠ 0x04)
    (hb : s.busy .alert = false) :
    s.presentGuard code arg = (s.taking (statusAddr 0) (wordOf code arg)).guardCommand code := by
  unfold State.presentGuard
  rw [if_neg hcode, hb, State.present_idle _ _ _ hc]
  rfl

theorem State.presentControl_of_idle (hc : s.cycle = .idle) (n : LineNo) (code arg : Byte)
    (hb : s.busy (.line n) = false) (hw : s.releaseWaits n code = false) :
    s.presentControl n code arg = (s.taking (lineAddr n 0) (wordOf code arg)).lineControl n code arg := by
  unfold State.presentControl
  rw [hb, hw, Bool.or_false, State.present_idle _ _ _ hc]
  rfl

theorem State.presentSetpoint_of_idle (hc : s.cycle = .idle) (n : LineNo) (word : Nat) (v : Word)
    (hb : s.busy (.line n) = false) :
    s.presentSetpoint n word v = (s.taking (lineAddr n word) v).lineSetpoint n word v := by
  unfold State.presentSetpoint
  rw [hb, State.present_idle _ _ _ hc]
  rfl

/-- Only RELEASE waits for a STOP. -/
theorem State.releaseWaits_of_code (n : LineNo) {code : Byte} (h : code ≠ 0x06) : s.releaseWaits n code = false := by
  unfold State.releaseWaits
  rw [beq_eq_false_iff_ne.mpr h, Bool.false_and, Bool.false_and]

end Sys2Proof.Machine
end
-- ==== Sys2Proof/Proofs/HostCycles.lean ====
section
/-! PROOFS. Steps and time (O1, O2), host reads and writes (O4 to O7), the run count (O9) and the arbiter (O10). -/

namespace Sys2Proof.Machine

/-! ### Steps and time -/

/-- Settles O1. -/
theorem stepRunsTheFrontCommand : Obligations.StepRunsTheFrontCommand := by
  unfold Obligations.StepRunsTheFrontCommand
  intro c rest s h
  unfold step
  rw [h]

theorem Timer.tick_eq_oneDown (t : Timer) : t.tick = oneDown t := by
  cases t with
  | stopped => rfl
  | running k => cases k <;> rfl

theorem Timer.runsOut_eq_endsNow (t : Timer) : t.runsOut = endsNow t := by cases t <;> rfl

theorem Timer.countDown_eq_oneDownLink (t : Timer) : t.countDown = oneDownLink t := by
  unfold Timer.countDown oneDownLink
  rw [Timer.runsOut_eq_endsNow, Timer.tick_eq_oneDown]

theorem Timer.expiry_eq_expiryOf (t : Timer) (e : LinkInput) : t.expiry e = expiryOf t e := by
  unfold Timer.expiry expiryOf
  rw [Timer.runsOut_eq_endsNow]

/-- Settles O2: each timer runs on as the statement's own functions say. -/
theorem anEmptyQueueIsOneMillisecond : Obligations.AnEmptyQueueIsOneMillisecond := by
  unfold Obligations.AnEmptyQueueIsOneMillisecond
  intro s h
  unfold step State.tick
  rw [h]
  unfold Line.tick Link.tick
  simp only [Timer.tick_eq_oneDown, Timer.runsOut_eq_endsNow, Timer.countDown_eq_oneDownLink, Timer.expiry_eq_expiryOf,
    List.append_assoc]

/-! ### Reads (R17, R18) -/

theorem State.hostRun_eq (s : State) : s.hostRun = runAfterHost s := by
  unfold State.hostRun runAfterHost State.readerWaits State.queueWaits
  cases s.jobs <;> cases s.queue <;> simp

theorem exec_hostReadGrant_of_read {s : State} {a : Addr} (hc : s.cycle = .read a) (hg : s.granted = some .host) :
    exec .hostReadGrant s = .next (s.grantRead a) := by
  simp [exec, execHostReadGrant, hc, hg]

/-- Settles O4: the read is answered by the queue's lookup, or waits. -/
theorem hostReadsAreForwardedOrGranted : Obligations.HostReadsAreForwardedOrGranted := by
  unfold Obligations.HostReadsAreForwardedOrGranted
  refine ⟨fun a s hc => ⟨fun v hv => ?_, fun hv => ?_⟩, fun a s hc hg => ?_⟩
  · simp [exec, execHostRead, hc, State.hostRead, hv]
  · simp [exec, execHostRead, hc, State.hostRead, hv]
  · rw [exec_hostReadGrant_of_read hc hg, ← State.hostRun_eq]
    rfl

/-! ### Writes (R1, R5, R6, R13 to R15) -/

/-- A write that is no full write to a watched word is taken by the unit. -/
theorem exec_hostWrite_of_idle {s : State} (hc : s.cycle = .idle) (a : Addr) (v : Word) (lanes : Lanes)
    (hw : HostWrite.watched ⟨wordAddr a, v, lanes⟩ = false) :
    exec (.hostWrite a v lanes) s = .next (s.takeWrite ⟨wordAddr a, v, lanes⟩) := by
  simp [exec, execHostWrite, hw, hc]

theorem HostWrite.watched_of_lanes (w : HostWrite) (h : w.lanes ≠ .both) : w.watched = false := by
  unfold HostWrite.watched
  rw [beq_eq_false_iff_ne.mpr h, Bool.false_and]

theorem HostWrite.watched_of_class (w : HostWrite)
    (h : classify w.addr = .below ∨ classify w.addr = .plain ∨ classify w.addr = .partOwned) : w.watched = false := by
  unfold HostWrite.watched
  rcases h with h | h | h <;> rw [h, Bool.and_false]

/-- A write that no block owns asks for the port. -/
theorem State.takeWrite_of_plain (s : State) (w : HostWrite) (h : classify w.addr = .plain ∨ classify w.addr = .below) :
    s.takeWrite w = { s with cycle := .write w } := by
  unfold State.takeWrite
  rcases h with h | h <;> rw [h]

/-- A write to a part-owned word is refused, and so is one lane of a watched word. -/
theorem State.takeWrite_of_refused (s : State) (w : HostWrite) (r : RefuseReason)
    (h : classify w.addr = .partOwned ∧ r = .partOwned ∨
      classify w.addr ≠ .partOwned ∧ classify w.addr ≠ .plain ∧ classify w.addr ≠ .below ∧ r = .partialWrite) :
    s.takeWrite w = s.refuseOutright w r 0xFF := by
  unfold State.takeWrite
  rcases h with ⟨h, rfl⟩ | ⟨h1, h2, h3, rfl⟩
  · rw [h]
  · split
    · next h => exact absurd h h3
    · next h => exact absurd h h2
    · next h => exact absurd h h1
    · rfl

theorem classify_of_guard_plain {a : Addr} (h : 0xFF800 ≤ a.toNat ∧ a.toNat < 0xFF840 ∨ 0xFFC80 ≤ a.toNat) :
    classify a = .plain := by
  rcases h with ⟨low, high⟩ | low
  · exact classify_of_config low high
  · exact classify_of_above low

/-- Settles O5: the map of R2 by the bounds of its areas, the two ways of a write by the class of its word. -/
theorem aHostWriteIsTakenOrRefusedOutright : Obligations.AHostWriteIsTakenOrRefusedOutright := by
  unfold Obligations.AHostWriteIsTakenOrRefusedOutright
  refine ⟨fun a => ⟨classify_of_below, classify_of_guard_plain, fun _ => addrLine_of_block, addrLine_of_outside⟩,
    fun k hk => ⟨statusAddr_toNat hk, classify_statusAddr hk⟩, fun n w hw => ⟨lineAddr_toNat n hw, classify_lineAddr n hw⟩,
    rfl, rfl, fun a v lanes s hc hclass => ?_, fun a v lanes r s hc hroom hcase => ?_⟩
  · rw [exec_hostWrite_of_idle hc a v lanes
      (HostWrite.watched_of_class _ (hclass.elim (fun h => .inr (.inl h)) .inl)), State.takeWrite_of_plain s _ hclass]
  · have hw : HostWrite.watched ⟨wordAddr a, v, lanes⟩ = false := by
      rcases hcase with ⟨h, -⟩ | ⟨-, -, -, h, -⟩
      · exact HostWrite.watched_of_class _ (.inr (.inr h))
      · exact HostWrite.watched_of_lanes _ h
    rw [exec_hostWrite_of_idle hc a v lanes hw, State.takeWrite_of_refused s _ r, State.refuseOutright_of_room hroom]
    · simp only [hc]
      rfl
    · rcases hcase with h | ⟨h1, h2, h3, -, hr⟩
      · exact .inl h
      · exact .inr ⟨h1, h2, h3, hr⟩

/-! ### Watched writes (R1, R9 to R12) -/

theorem getLsbD_wordOf (h l : Byte) (i : Nat) :
    (wordOf h l).getLsbD i = if i < 8 then l.getLsbD i else h.getLsbD (i - 8) :=
  (BitVec.getLsbD_append (x := h) (y := l) (i := i)).trans (by split <;> simp_all)

@[simp] theorem highByte_wordOf (h l : Byte) : highByte (wordOf h l) = h := by
  apply BitVec.eq_of_getLsbD_eq
  intro i hi
  simp [highByte, hi, getLsbD_wordOf]

@[simp] theorem lowByte_wordOf (h l : Byte) : lowByte (wordOf h l) = l := by
  apply BitVec.eq_of_getLsbD_eq
  intro i hi
  simp [lowByte, hi, getLsbD_wordOf]

/-- A full write to a watched word is the command of its row. -/
theorem exec_hostWrite_of_watched (s : State) (a : Addr) (v : Word) (hw : HostWrite.watched ⟨wordAddr a, v, .both⟩ = true) :
    exec (.hostWrite a v .both) s = .next (s.presentWatched (classify (wordAddr a)) v) := by
  simp [exec, execHostWrite, hw]

theorem exec_hostWrite_guard (s : State) (code arg : Byte) :
    exec (.hostWrite (statusAddr 0) (wordOf code arg) .both) s = .next (s.presentGuard code arg) := by
  have hclass : classify (statusAddr 0) = .guardCommand := classify_statusAddr (by decide)
  have haddr : wordAddr (statusAddr 0) = statusAddr 0 := wordAddr_statusAddr (by decide)
  rw [exec_hostWrite_of_watched, haddr, hclass]
  · simp [State.presentWatched]
  · simp [HostWrite.watched, haddr, hclass]

theorem exec_hostWrite_control (s : State) (n : LineNo) (code arg : Byte) :
    exec (.hostWrite (lineAddr n 0) (wordOf code arg) .both) s = .next (s.presentControl n code arg) := by
  have hclass : classify (lineAddr n 0) = .control n := classify_lineAddr n (by decide)
  have haddr : wordAddr (lineAddr n 0) = lineAddr n 0 := wordAddr_lineAddr n (by decide)
  rw [exec_hostWrite_of_watched, haddr, hclass]
  · simp [State.presentWatched]
  · simp [HostWrite.watched, haddr, hclass]

theorem exec_hostWrite_setpoint (s : State) (n : LineNo) (w : Nat) (low : 1 ≤ w) (high : w ≤ 3) (v : Word) :
    exec (.hostWrite (lineAddr n w) v .both) s = .next (s.presentSetpoint n w v) := by
  have hclass : classify (lineAddr n w) = .setpoint n w := by
    rw [classify_lineAddr n (by omega), lineClass, if_neg (by omega), if_pos high]
  have haddr : wordAddr (lineAddr n w) = lineAddr n w := wordAddr_lineAddr n (by omega)
  rw [exec_hostWrite_of_watched, haddr, hclass]
  · rfl
  · simp [HostWrite.watched, haddr, hclass]

theorem exec_hostWrite_consumer (s : State) (v : Word) :
    exec (.hostWrite (statusAddr 5) v .both) s = exec (.consumer v) s := by
  have hclass : classify (statusAddr 5) = .consumer := classify_statusAddr (by decide)
  have haddr : wordAddr (statusAddr 5) = statusAddr 5 := wordAddr_statusAddr (by decide)
  rw [exec_hostWrite_of_watched, haddr, hclass]
  · rfl
  · simp [HostWrite.watched, haddr, hclass]

/-- The guard commands are presented with their codes (R9, R156). -/
theorem exec_guardCommand (s : State) (code arg : Byte) :
    exec (if code = 0x00 then .guardNoCommand arg else if code = 0x01 then .acknowledge arg
      else if code = 0x02 then .stopAll arg else if code = 0x03 then .releaseStop arg
      else if code = 0x04 then .loadConfig arg else .guardUnknownCommand code arg) s =
      .next (s.presentGuard code arg) := by
  split
  · next h => rw [h]; rfl
  split
  · next h => rw [h]; rfl
  split
  · next h => rw [h]; rfl
  split
  · next h => rw [h]; rfl
  split
  · next h => rw [h]; rfl
  · rfl

/-- The line commands are presented with their codes (R10, R61). -/
theorem exec_lineCommand (s : State) (n : LineNo) (code arg : Byte) :
    exec (if code = 0x00 then .lineNoCommand n arg else if code = 0x01 then .bind n arg
      else if code = 0x02 then .start n arg else if code = 0x03 then .hold n arg
      else if code = 0x04 then .resume n arg else if code = 0x05 then .endStage n arg
      else if code = 0x06 then .release n arg else if code = 0x07 then .resync n arg
      else if code = 0x08 then .rearmFlags n arg else .lineUnknownCommand n code arg) s =
      .next (s.presentControl n code arg) := by
  split
  · next h => rw [h]; rfl
  split
  · next h => rw [h]; rfl
  split
  · next h => rw [h]; rfl
  split
  · next h => rw [h]; rfl
  split
  · next h => rw [h]; rfl
  split
  · next h => rw [h]; rfl
  split
  · next h => rw [h]; rfl
  split
  · next h => rw [h]; rfl
  split
  · next h => rw [h]; rfl
  · rfl

/-! ### Watched writes for a busy owner (R1, log 16) -/

/-- What the presentation of a write depends on: an owner that is busy has it held, and a held write that its owner is free
for is presented as on an idle bus. -/
structure Presents (present : State → State) (w : HostWrite) (b : Block) : Prop where
  waits : ∀ s : State, s.cycle = .idle → s.busy b = true → present s = { s with cycle := .held w }
  held : ∀ s : State, s.cycle = .held w → s.busy b = true → present s = s
  taken : ∀ s : State, s.cycle = .held w → s.busy b = false → present s = present { s with cycle := .idle }

theorem presents_of_present (w : HostWrite) (b : Block) (waits : State → Bool) (take : State → State)
    (hb : ∀ s : State, s.busy b = true → waits s = true)
    (hc : ∀ (s : State) (c : HostCycle), waits { s with cycle := c } = waits s) :
    Presents (fun s => s.present w (waits s) take) w b where
  waits s hs h := by
    rw [hb s h, State.present_waits _ _ _ hs]
  held s hs h := by
    rw [hb s h, State.present_held _ _ _ hs]
  taken s hs _ := by
    rw [hc s .idle]
    cases waits s with
    | true =>
      rw [State.present_held s _ _ hs, State.present_waits { s with cycle := .idle } _ _ rfl, ← hs]
    | false => rw [State.present_held_taken s _ _ hs, State.present_idle { s with cycle := .idle } _ _ rfl]

theorem presents_control (n : LineNo) (code arg : Byte) :
    Presents (fun s => s.presentControl n code arg) (fullWrite (lineAddr n 0) (wordOf code arg)) (.line n) :=
  presents_of_present _ _ (fun s => s.busy (.line n) || s.releaseWaits n code) _ (fun _ h => by rw [h, Bool.true_or])
    fun _ _ => rfl

theorem presents_setpoint (n : LineNo) (word : Nat) (v : Word) :
    Presents (fun s => s.presentSetpoint n word v) (fullWrite (lineAddr n word) v) (.line n) :=
  presents_of_present _ _ (fun s => s.busy (.line n)) _ (fun _ => id) fun _ _ => rfl

theorem presents_guard (code arg : Byte) :
    Presents (fun s => s.presentGuard code arg) (fullWrite (statusAddr 0) (wordOf code arg))
      (if code = 0x04 then .config else .alert) := by
  unfold State.presentGuard
  split
  · exact presents_of_present _ _ (fun s => s.busy .config) _ (fun _ => id) fun _ _ => rfl
  · exact presents_of_present _ _ (fun s => s.busy .alert) _ (fun _ => id) fun _ _ => rfl

/-- A watched write is presented as its word is. -/
theorem presents_of_watchedWrite {c : Instr} {w : HostWrite} {b : Block} (h : watchedWrite c = some (w, b)) :
    ∃ present, (∀ s, exec c s = .next (present s)) ∧ Presents present w b := by
  cases c with
  | guardNoCommand arg => cases h; exact ⟨_, fun _ => rfl, presents_guard 0x00 arg⟩
  | acknowledge arg => cases h; exact ⟨_, fun _ => rfl, presents_guard 0x01 arg⟩
  | stopAll arg => cases h; exact ⟨_, fun _ => rfl, presents_guard 0x02 arg⟩
  | releaseStop arg => cases h; exact ⟨_, fun _ => rfl, presents_guard 0x03 arg⟩
  | loadConfig arg => cases h; exact ⟨_, fun _ => rfl, presents_guard 0x04 arg⟩
  | guardUnknownCommand code arg => cases h; exact ⟨_, fun _ => rfl, presents_guard code arg⟩
  | lineNoCommand n arg => cases h; exact ⟨_, fun _ => rfl, presents_control n 0x00 arg⟩
  | bind n arg => cases h; exact ⟨_, fun _ => rfl, presents_control n 0x01 arg⟩
  | start n arg => cases h; exact ⟨_, fun _ => rfl, presents_control n 0x02 arg⟩
  | hold n arg => cases h; exact ⟨_, fun _ => rfl, presents_control n 0x03 arg⟩
  | resume n arg => cases h; exact ⟨_, fun _ => rfl, presents_control n 0x04 arg⟩
  | endStage n arg => cases h; exact ⟨_, fun _ => rfl, presents_control n 0x05 arg⟩
  | release n arg => cases h; exact ⟨_, fun _ => rfl, presents_control n 0x06 arg⟩
  | resync n arg => cases h; exact ⟨_, fun _ => rfl, presents_control n 0x07 arg⟩
  | rearmFlags n arg => cases h; exact ⟨_, fun _ => rfl, presents_control n 0x08 arg⟩
  | lineUnknownCommand n code arg => cases h; exact ⟨_, fun _ => rfl, presents_control n code arg⟩
  | flowTarget n v => cases h; exact ⟨_, fun _ => rfl, presents_setpoint n 1 v⟩
  | ceilingRequest n v => cases h; exact ⟨_, fun _ => rfl, presents_setpoint n 2 v⟩
  | mixRequest n v => cases h; exact ⟨_, fun _ => rfl, presents_setpoint n 3 v⟩
  | _ => cases h

/-- Settles O6: a watched write is presented by its word, and every presentation treats a busy owner alike. -/
theorem aWatchedWriteIsItsCommandAndWaitsForItsOwner : Obligations.AWatchedWriteIsItsCommandAndWaitsForItsOwner := by
  unfold Obligations.AWatchedWriteIsItsCommandAndWaitsForItsOwner
  refine ⟨fun s => ⟨fun code arg => ?_, exec_hostWrite_consumer s, fun n => ⟨fun code arg => ?_, fun v => ⟨?_, ?_, ?_⟩⟩⟩,
    fun c w b s h => ?_⟩
  · rw [exec_hostWrite_guard, exec_guardCommand]
  · rw [exec_hostWrite_control, exec_lineCommand]
  · exact exec_hostWrite_setpoint s n 1 (by decide) (by decide) v
  · exact exec_hostWrite_setpoint s n 2 (by decide) (by decide) v
  · exact exec_hostWrite_setpoint s n 3 (by decide) (by decide) v
  · obtain ⟨present, hexec, hp⟩ := presents_of_watchedWrite h
    refine ⟨fun hc hb => ?_, fun hc hb => ?_, fun hc hb => ?_⟩
    · rw [hexec, hp.waits s hc hb]
    · rw [hexec, hp.held s hc hb]
    · rw [hexec, hexec, hp.taken s hc hb]

/-! ### The grant of a write (R5, R7, R8) -/

theorem exec_hostWriteGrant_of_write {s : State} {w : HostWrite} (hc : s.cycle = .write w) (hg : s.granted = some .host) :
    exec .hostWriteGrant s = .next (s.grantWrite w) := by
  simp [exec, execHostWriteGrant, hc, hg]

/-- A grant lets a write through to every word that is neither in the Ring class nor of the record of a held stage. -/
theorem State.refusedAtGrant_eq_none {s : State} {a : Addr}
    (h : classify a ≠ .below ∨ s.ringClass a = false ∧ ∀ st, s.stageOf a = some st → s.bindingOf st = none) :
    s.refusedAtGrant a = none := by
  unfold State.refusedAtGrant
  rcases h with h | ⟨hr, hst⟩
  · rw [if_pos h]
  · by_cases hb : classify a ≠ .below
    · rw [if_pos hb]
    · rw [if_neg hb, hr, if_neg Bool.false_ne_true]
      split
      · rfl
      · next st heq => rw [if_pos (hst st heq)]

theorem State.refusedAtGrant_eq_some {s : State} {a : Addr} {r : RefuseReason} {stage : Byte} (hb : classify a = .below)
    (h : s.ringClass a = true ∧ r = .ringArea ∧ stage = 0xFF ∨ s.ringClass a = false ∧ ∃ st, s.stageOf a = some st ∧
      s.bindingOf st ≠ none ∧ r = .recordBound ∧ stage = BitVec.ofNat 8 st.val) :
    s.refusedAtGrant a = some (r, stage) := by
  unfold State.refusedAtGrant
  rw [if_neg (not_not.mpr hb)]
  rcases h with ⟨hr, rfl, rfl⟩ | ⟨hr, st, hst, hheld, rfl, rfl⟩
  · rw [hr, if_pos rfl]
  · rw [hr, if_neg Bool.false_ne_true, hst]
    exact if_neg hheld

/-- R5: what a write of the lanes of a word leaves in its low byte. -/
theorem writeLanes_get_low (m : List Host.Cell) (a : Addr) (v : Word) (lanes : Lanes) :
    Memory.get (writeLanes m a v lanes) (wordAddr a).toNat =
      if lanes = .high then Memory.get m (wordAddr a).toNat else lowByte v := by
  have hne : (wordAddr a).toNat ≠ (wordAddr a).toNat + 1 := Nat.ne_of_lt (Nat.lt_succ_self _)
  cases lanes with
  | low => exact Memory.get_set_same _ _ _
  | high => exact Memory.get_set_other _ _ hne
  | both => exact (Memory.get_set_other _ _ hne).trans (Memory.get_set_same _ _ _)

/-- R5: what a write of the lanes of a word leaves in its high byte. -/
theorem writeLanes_get_high (m : List Host.Cell) (a : Addr) (v : Word) (lanes : Lanes) :
    Memory.get (writeLanes m a v lanes) ((wordAddr a).toNat + 1) =
      if lanes = .low then Memory.get m ((wordAddr a).toNat + 1) else highByte v := by
  cases lanes with
  | low => exact Memory.get_set_other _ _ (Nat.succ_ne_self _)
  | high => exact Memory.get_set_same _ _ _
  | both => exact Memory.get_set_same _ _ _

/-- R5: every byte of another word is kept. -/
theorem writeLanes_get_elsewhere (m : List Host.Cell) (b : Addr) (v : Word) (lanes : Lanes) {a : Nat}
    (hlow : a ≠ (wordAddr b).toNat) (hhigh : a ≠ (wordAddr b).toNat + 1) :
    Memory.get (writeLanes m b v lanes) a = Memory.get m a := by
  cases lanes with
  | low => exact Memory.get_set_other m _ hlow
  | high => exact Memory.get_set_other m _ hhigh
  | both => exact (Memory.get_set_other _ _ hhigh).trans (Memory.get_set_other m _ hlow)

theorem Ring.contains_iff (r : Ring) (a : Nat) : r.contains a = true ↔ r.base ≤ a ∧ a < r.base + r.size * 16 := by
  unfold Ring.contains
  rw [Bool.and_eq_true, decide_eq_true_eq, decide_eq_true_eq, Nat.mul_comm]

/-- R3: the Ring class is the ring of the loaded image and an old ring extent. -/
theorem State.ringClass_iff (s : State) (a : Addr) :
    s.ringClass a = true ↔
      (∃ i, s.config.image = some i ∧ i[9].toNat * 16 ≤ a.toNat ∧ a.toNat < i[9].toNat * 16 + i[10].toNat * 16) ∨
      ∃ r, s.oldRing = some r ∧ r.base ≤ a.toNat ∧ a.toNat < r.base + r.size * 16 := by
  unfold State.ringClass
  rw [Bool.or_eq_true]
  refine or_congr ?_ ?_
  · cases s.config.image with
    | none => simp
    | some i =>
      simp only [Option.some.injEq, exists_eq_left']
      exact Ring.contains_iff (ringOf i) a.toNat
  · cases s.oldRing with
    | none => simp
    | some r => simpa using Ring.contains_iff r a.toNat

/-- Settles O7: a grant by the test of the word's class, and the classes of R3 by the image. -/
theorem aGrantedWriteIsWrittenOrRefused : Obligations.AGrantedWriteIsWrittenOrRefused := by
  unfold Obligations.AGrantedWriteIsWrittenOrRefused
  refine ⟨fun w s hc hg hpass => ?_, fun w r stage s hc hg hroom hb hcase => ?_, fun s => ⟨fun h => ?_, fun i h => ?_⟩,
    fun a s => s.ringClass_iff a⟩
  · refine ⟨{ s with cycle := .idle, mem := writeLanes s.mem w.addr w.value w.lanes, runCount := runAfterHost s }, ?_, rfl,
      writeLanes_get_low _ _ _ _, writeLanes_get_high _ _ _ _, fun a => writeLanes_get_elsewhere _ _ _ _⟩
    rw [exec_hostWriteGrant_of_write hc hg, State.grantWrite, State.refusedAtGrant_eq_none hpass, ← State.hostRun_eq]
  · rw [exec_hostWriteGrant_of_write hc hg, State.grantWrite, State.refusedAtGrant_eq_some hb hcase, ← State.hostRun_eq]
    dsimp only
    rw [State.refuseOutright_of_room (s := { s with runCount := s.hostRun }) hroom]
    rfl
  · rw [State.tableBase, h]
    rfl
  · rw [State.tableBase, h]
    rfl

/-! ### The run count (R22) -/

/-- A forwarded or waiting read leaves the run count. -/
theorem execHostRead_runCount (s t : State) (a : Addr) (h : exec (.hostRead a) s = .next t) : t.runCount = s.runCount := by
  simp only [exec, execHostRead, Host.Outcome.next.injEq] at h
  subst h
  split
  · unfold State.hostRead
    split <;> rfl
  · rfl

/-- The run count is none of an operation's business. -/
theorem kept_runCount (k : Nat) : Kept fun t => t.runCount = k where
  accept _ _ h _ := h
  act t a h _ := (t.perform_quiet a).runCount.trans h
  wait _ _ h := h
  cont t c h := (t.startCont_quiet c).runCount.trans h
  own t n e h := (t.takeOwn_quiet n e).runCount.trans h
  arrivals _ _ _ h := h
  cycle _ _ _ h := h

theorem grantWrite_runCount (s : State) (w : HostWrite) : (s.grantWrite w).runCount = runAfterHost s := by
  rw [← State.hostRun_eq]
  unfold State.grantWrite
  split
  · exact (State.refuseOutright_quiet _ w _ _).runCount
  · rfl

theorem drainHead_runCount (s : State) (e : Post) (rest : List Post) : (s.drainHead e rest).runCount = 0 :=
  (kept_runCount 0).resumeAll _ _ ((kept_runCount 0).acceptWaiting _ _ rfl)

theorem deliverWord_runCount (s : State) (v : Word) : (s.deliverWord v).runCount = s.runCount := by
  unfold State.deliverWord
  split
  · unfold State.deliverCopy
    dsimp only
    split <;> rfl
  · unfold State.deliverLoad
    dsimp only
    split <;> rfl
  · rfl

theorem endRead_runCount (s : State) (v : Word) (gone : Bool) : (s.endRead v gone).runCount = s.runCount := by
  unfold State.endRead
  split
  · rfl
  · exact deliverWord_runCount _ v

/-- The next word of the head job can be read where a table stands, and that of a load always. -/
theorem State.nextRead_isSome {s : State} (hj : s.jobs ≠ []) (h : s.tableBase ≠ none ∨ ∃ k rest, s.jobs = .load k :: rest) :
    ∃ v, s.nextRead = some v := by
  unfold State.nextRead
  cases hjobs : s.jobs with
  | nil => exact absurd hjobs hj
  | cons j rest =>
    cases j with
    | load k => exact ⟨_, rfl⟩
    | bindCopy n st tag k =>
      cases hb : s.tableBase with
      | some b => exact ⟨_, rfl⟩
      | none =>
        rcases h with h | ⟨k', rest', h⟩
        · exact absurd hb h
        · rw [hjobs] at h
          cases h

theorem State.port_of_granted {s : State} {r : Requester} (h : s.granted = some r) : s.port = .free := by
  by_contra hp
  simp [State.granted, hp] at h

/-- The port is granted to the reader only for a job (R21). -/
theorem State.jobs_of_granted {s : State} (h : s.granted = some .reader) : s.jobs ≠ [] := by
  intro hj
  simp only [State.granted, State.readerWaits, hj] at h
  repeat' split at h
  all_goals simp_all

theorem exec_tableReaderGrant_of_free {s : State} {v : Word} (hg : s.granted = some .reader) (hv : s.nextRead = some v) :
    exec .tableReaderGrant s = .next (s.beginRead v) := by
  simp [exec, execTableReaderGrant, State.port_of_granted hg, hv, hg]

/-- Settles O9: the count by the grant it follows, and its bound by the course of a command. -/
theorem theRunCountCountsHostGrants : Obligations.TheRunCountCountsHostGrants := by
  unfold Obligations.TheRunCountCountsHostGrants
  refine ⟨fun s t a hc hg h => ?_, fun s t w hc hg h => ?_, fun s t hg hq h => ?_, fun s t hg hjob h => ?_,
    fun s t hp h => ?_, execHostRead_runCount, rfl, fun c s t hs h => (exec_course c s t h).runSound hs⟩
  · rw [exec_hostReadGrant_of_read hc hg] at h
    cases h
    exact s.hostRun_eq
  · rw [exec_hostWriteGrant_of_write hc hg] at h
    cases h
    exact grantWrite_runCount s w
  · cases hqueue : s.queue with
    | nil => exact absurd hqueue hq
    | cons e rest =>
      simp only [exec, execInsertQueueDrain, hqueue, hg, if_true] at h
      cases h
      exact drainHead_runCount s e rest
  · obtain ⟨v, hv⟩ := State.nextRead_isSome (State.jobs_of_granted hg) hjob
    rw [exec_tableReaderGrant_of_free hg hv] at h
    cases h
    rfl
  · cases hport : s.port with
    | free => exact absurd hport hp
    | reading v gone =>
      simp only [exec, execTableReaderGrant, hport] at h
      cases h
      exact endRead_runCount s v gone

/-! ### The arbiter (R20, R21) -/

theorem State.hostWaits_iff (s : State) : s.hostWaits = true ↔ (∃ a, s.cycle = .read a) ∨ ∃ w, s.cycle = .write w := by
  unfold State.hostWaits
  cases s.cycle <;> simp

theorem State.readerWaits_iff (s : State) : s.readerWaits = true ↔ s.jobs ≠ [] := by
  simp [State.readerWaits]

theorem State.queueWaits_iff (s : State) : s.queueWaits = true ↔ s.queue ≠ [] := by
  simp [State.queueWaits]

/-- Settles O10: the rows of R21 in their order. -/
theorem theArbiterGrantsByItsTable : Obligations.TheArbiterGrantsByItsTable := by
  unfold Obligations.TheArbiterGrantsByItsTable
  refine ⟨State.hostWaits_iff, fun s hp => ?_⟩
  have hport : ¬ s.port ≠ .free := not_not.mpr hp
  have hreader := s.readerWaits_iff
  have hqueue := s.queueWaits_iff
  unfold State.granted
  rw [if_neg hport]
  refine ⟨fun hd => if_pos hd, fun hd hh hr => ?_, fun hd hh hr hj => ?_, fun hd hh hr hj hq => ?_, fun hd hh hj => ?_,
    fun hd hh hj hq => ?_, fun hd hh hj hq => ?_⟩ <;> rw [if_neg (by simp [hd])]
  · rw [if_pos hh]
    exact if_pos hr
  · rw [if_pos hh, if_neg (by rw [hr]; decide), if_pos (hreader.mpr hj)]
  · rw [if_pos hh, if_neg (by rw [hr]; decide), if_neg (fun h => hreader.mp h hj), if_pos (hqueue.mpr hq)]
  · rw [if_neg (by simp [hh]), if_pos (hreader.mpr hj)]
  · rw [if_neg (by simp [hh]), if_neg (fun h => hreader.mp h hj), if_pos (hqueue.mpr hq)]
  · rw [if_neg (by simp [hh]), if_neg (fun h => hreader.mp h hj), if_neg (fun h => hqueue.mp h hq)]

end Sys2Proof.Machine
end
-- ==== Sys2Proof/Proofs/QueueAndReader.lean ====
section
/-! PROOFS. Posts that join the queue or wait (O11), and what the table reader delivers (O13). -/

namespace Sys2Proof.Machine

/-! ### Posts (R23 to R26) -/

theorem queued_eq_false_iff (q : List Post) (a : Addr) : queued q a = false ↔ queuedData q a = none := by
  simp [queued, queuedData]

theorem State.busy_iff (s : State) (b : Block) : s.busy b = true ↔ ∃ w ∈ s.waiting, w.block = b := by
  simp [State.busy]

/-- A post that finds the queue full and no entry for its address is not taken. -/
theorem State.takesPost_of_full {s : State} {p : Post} (h : s.queue.length = 16) (hq : queued s.queue p.addr = false) :
    s.takesPost p = false := by
  simp [State.takesPost, hq, h, Config.queueCapacity]

theorem State.takesPost_of_queued_or_room {s : State} {p : Post}
    (h : queued s.queue p.addr = true ∨ s.queue.length < 16) : s.takesPost p = true := by
  unfold State.takesPost
  rcases h with h | h
  · rw [h, Bool.true_or]
  · rw [Bool.or_eq_true]
    exact .inr (decide_eq_true h)

theorem State.accept_drain_of_new {s : State} {p : Post} (h : queued s.queue p.addr = false) :
    (s.accept p).drain = (s.drain || s.queue.length == 11) := by
  simp only [State.accept_drain, fillsToDrain, h, Bool.not_false, Bool.true_and]
  congr 1
  rw [Bool.eq_iff_iff, beq_iff_eq, beq_iff_eq]
  exact Nat.succ_inj (a := s.queue.length) (b := 11)

theorem State.accept_drain_of_queued {s : State} {p : Post} (h : queued s.queue p.addr = true) :
    (s.accept p).drain = s.drain := by
  simp [fillsToDrain, h]

/-- The first post that finds no place waits with what is left, and its block is busy (R26). -/
theorem State.runActs_of_full {s : State} {p : Post} (b : Block) (c : Option Cont) (rest : List Act)
    (h : s.queue.length = 16) (hq : queued s.queue p.addr = false) :
    State.runActs b c (.post p :: rest) s = ({ s with waiting := s.waiting ++ [⟨b, p, rest, c⟩] }, false) := by
  rw [State.runActs_post, if_neg (by rw [State.takesPost_of_full h hq]; decide)]

/-- Settles O11: by whether the queue takes the post. -/
theorem aPostJoinsTheTailOrWaits : Obligations.APostJoinsTheTailOrWaits := by
  unfold Obligations.APostJoinsTheTailOrWaits
  refine ⟨fun q a => ⟨queued_iff q a, queued_eq_false_iff q a⟩, State.busy_iff, fun p s => ⟨rfl, fun h => ⟨?_, ?_⟩,
    State.accept_drain_of_queued, queuedData_joinQueue_same _ p, fun a ha => queuedData_joinQueue_other _ p ha⟩,
    fun b c p rest s hl hq => ?_, fun b c p rest s h => ⟨?_, rfl, fun hn hq => joinQueue_length_eq _ p hn hq⟩⟩
  · exact joinQueue_of_not_queued _ p h
  · exact State.accept_drain_of_new h
  · refine ⟨_, State.runActs_of_full b c rest hl hq, rfl, ?_⟩
    exact (State.busy_iff _ _).mpr ⟨_, List.mem_append_right _ (List.mem_singleton_self _), rfl⟩
  · rw [State.runActs_post, if_pos (State.takesPost_of_queued_or_room h)]

/-! ### The table reader (R30 to R33, R35) -/

/-- The lines of a state that differs from another in one of them. -/
theorem State.line_of_lines {s t : State} {n : LineNo} {l : Line} (h : t.lines = s.lines.set n l) :
    t.line n = l ∧ ∀ m, m ≠ n → t.line m = s.line m := by
  have hm (m : LineNo) : t.line m = (s.setLine n l).line m := by
    unfold State.line
    rw [h]
    rfl
  exact ⟨(hm n).trans (s.line_setLine_same n l), fun m hne => (hm m).trans (s.line_setLine_other l hne)⟩

theorem toList_getD_set_same {k m : Nat} (v : Vector Word m) (x : Word) (h : k < m) :
    (v.set k x).toList.getD k 0 = x := by
  simp [List.getD_eq_getElem?_getD, Vector.toList_set, h]

theorem toList_getD_set_other {k j m : Nat} (v : Vector Word m) (x : Word) (h : k < m) (hj : j ≠ k) :
    (v.set k x).toList.getD j 0 = v.toList.getD j 0 := by
  simp [List.getD_eq_getElem?_getD, Vector.toList_set, hj.symm]

/-- R35: what each word of a record does to the copy being filled. -/
theorem Filling.deliver_spec (f : Filling) (k : Nat) (v : Word) :
    (k < 38 → (f.deliver k v).words.toList.getD k 0 = v ∧ (f.deliver k v).check = f.check ∧
      ∀ j, j ≠ k → (f.deliver k v).words.toList.getD j 0 = f.words.toList.getD j 0) ∧
    (38 ≤ k → k < 47 → f.deliver k v = f) ∧
    (k = 47 → (f.deliver k v).words = f.words ∧ (f.deliver k v).check = v) := by
  unfold Filling.deliver
  refine ⟨fun h => ?_, fun h38 h47 => ?_, fun h => ?_⟩
  · rw [dif_pos h]
    exact ⟨toList_getD_set_same _ _ h, rfl, fun j hj => toList_getD_set_other _ _ h hj⟩
  · rw [dif_neg (by omega), if_neg (by omega)]
  · rw [dif_neg (by omega), if_pos h]
    exact ⟨rfl, rfl⟩

/-- The word the reader finds for its next read (R30). -/
theorem State.nextRead_of_jobs {s : State} {v : Word}
    (h : (∃ n st tag k rest base, s.jobs = .bindCopy n st tag k :: rest ∧ s.tableBase = some base ∧
        v = readWord s.mem (BitVec.ofNat 20 (base + 96 * st.val + 2 * k))) ∨
      ∃ k rest, s.jobs = .load k :: rest ∧ v = readWord s.mem (BitVec.ofNat 20 (0xFF800 + 2 * k))) :
    s.nextRead = some v := by
  unfold State.nextRead
  rcases h with ⟨n, st, tag, k, rest, base, hj, hb, rfl⟩ | ⟨k, rest, hj, rfl⟩
  · rw [hj, hb]
    rfl
  · rw [hj]
    rfl

/-- The row presented again is the return of the read (log 5). -/
theorem exec_tableReaderGrant_of_reading {s : State} {v : Word} {gone : Bool} (hp : s.port = .reading v gone) :
    exec .tableReaderGrant s = .next (s.endRead v gone) := by
  simp [exec, execTableReaderGrant, hp]

theorem State.endRead_of_load {s : State} {k : Nat} {rest : List Job} (v : Word) (hj : s.jobs = .load k :: rest) :
    s.endRead v false = State.deliverLoad { s with port := .free } v k rest := by
  simp [State.endRead, State.deliverWord, hj]

theorem Line.deliver_of_filling {l : Line} {f : Filling} (h : l.filling = some f) (k : Nat) (v : Word) :
    l.deliver k v = { l with filling := some (f.deliver k v) } := by
  rw [Line.deliver, h]
  rfl

/-- A word of a copy before the last is delivered and the job counts it (R31). -/
theorem State.endRead_of_copy {s : State} {n : LineNo} {st : StageNo} {tag : Byte} {k : Nat} {rest : List Job} {f : Filling}
    (v : Word) (hj : s.jobs = .bindCopy n st tag k :: rest) (hf : (s.line n).filling = some f) (h : k < 47) :
    s.endRead v false =
      { s with
        port := .free
        lines := s.lines.set n { s.line n with filling := some (f.deliver k v) }
        jobs := .bindCopy n st tag (k + 1) :: rest } := by
  rw [← Line.deliver_of_filling hf]
  simp only [State.endRead, State.deliverWord, hj, State.deliverCopy]
  rw [if_pos (Nat.succ_lt_succ h)]
  rfl

/-- The last word of a copy ends the job (R32). -/
theorem State.endRead_of_copy_last {s : State} {n : LineNo} {st : StageNo} {tag : Byte} {rest : List Job} {f : Filling}
    (v : Word) (hj : s.jobs = .bindCopy n st tag 47 :: rest) (hf : (s.line n).filling = some f) :
    s.endRead v false =
      { s with
        port := .free
        lines := s.lines.set n (Line.jobEnded { s.line n with filling := some (f.deliver 47 v) } tag)
        jobs := rest } := by
  rw [← Line.deliver_of_filling hf]
  simp only [State.endRead, State.deliverWord, hj, State.deliverCopy]
  rw [if_neg (Nat.lt_irrefl 48)]
  rfl

theorem State.deliverLoad_of_lt (s : State) (v : Word) (k : Nat) (rest : List Job) (h : k < 11) :
    s.deliverLoad v k rest = { s with config := s.config.deliver k v, jobs := .load (k + 1) :: rest } :=
  if_pos (Nat.succ_lt_succ h)

theorem State.deliverLoad_last (s : State) (v : Word) (rest : List Job) :
    s.deliverLoad v 11 rest =
      { s with config := { s.config.deliver 11 v with jobDone := s.config.jobDone + 1 }, jobs := rest } :=
  rfl

theorem ConfigUnit.deliver_of_image {c : ConfigUnit} {i : Vector Word 12} (h : c.loadImage = some i) {k : Nat}
    (hk : k < 12) (v : Word) : c.deliver k v = { c with loadImage := some (i.set k v) } := by
  rw [ConfigUnit.deliver, h, Option.map_some, dif_pos hk]

/-- Settles O13: a grant by the next read, a return by the job whose word it is, before its last word or at it. -/
theorem theReaderDeliversItsNextWord : Obligations.TheReaderDeliversItsNextWord := by
  unfold Obligations.TheReaderDeliversItsNextWord
  refine ⟨fun v s hg h => exec_tableReaderGrant_of_free hg (State.nextRead_of_jobs h),
    fun v n st tag k rest f s hp hj hk hf => ?_, fun v k rest i s hp hj hk hi => ?_, fun v j rest s hp hj => ?_⟩
  · rcases Nat.lt_or_eq_of_le (Nat.le_of_lt_succ hk) with h47 | rfl
    · obtain ⟨t, ht, hexec⟩ : ∃ t, t = _ ∧ exec .tableReaderGrant s = .next t :=
        ⟨_, rfl, (exec_tableReaderGrant_of_reading hp).trans (congrArg _ (State.endRead_of_copy v hj hf h47))⟩
      obtain ⟨hline, hother⟩ := State.line_of_lines (s := s) (t := t) (congrArg State.lines ht)
      refine ⟨t, f.deliver k v, hexec, by rw [ht], hother, by rw [hline], fun _ => ⟨by rw [ht], by rw [hline]⟩,
        fun h => absurd h (Nat.ne_of_lt h47), f.deliver_spec k v⟩
    · obtain ⟨t, ht, hexec⟩ : ∃ t, t = _ ∧ exec .tableReaderGrant s = .next t :=
        ⟨_, rfl, (exec_tableReaderGrant_of_reading hp).trans (congrArg _ (State.endRead_of_copy_last v hj hf))⟩
      obtain ⟨hline, hother⟩ := State.line_of_lines (s := s) (t := t) (congrArg State.lines ht)
      refine ⟨t, f.deliver 47 v, hexec, by rw [ht], hother, by rw [hline]; rfl, fun h => absurd h (Nat.lt_irrefl 47),
        fun _ => ⟨by rw [ht], by rw [hline]; rfl⟩, f.deliver_spec 47 v⟩
  · have hdeliver := ConfigUnit.deliver_of_image hi hk v
    have hexec := (exec_tableReaderGrant_of_reading hp).trans (congrArg _ (State.endRead_of_load v hj))
    rcases Nat.lt_or_eq_of_le (Nat.le_of_lt_succ hk) with h11 | rfl
    · rw [State.deliverLoad_of_lt _ _ _ _ h11, hdeliver] at hexec
      exact ⟨_, i.set k v, hexec, rfl, toList_getD_set_same _ _ hk, fun m hm => toList_getD_set_other _ _ hk hm,
        fun _ => ⟨rfl, rfl⟩, fun h => absurd h (Nat.ne_of_lt h11)⟩
    · rw [State.deliverLoad_last, hdeliver] at hexec
      exact ⟨_, i.set 11 v, hexec, rfl, toList_getD_set_same _ _ hk, fun m hm => toList_getD_set_other _ _ hk hm,
        fun h => absurd h (Nat.lt_irrefl 11), fun _ => ⟨rfl, rfl⟩⟩
  · rw [exec_tableReaderGrant_of_reading hp, State.endRead_withdrawn, hj]
    rfl

end Sys2Proof.Machine
end
-- ==== Sys2Proof/Proofs/Drains.lean ====
section
/-! PROOFS. INSERT_QUEUE_DRAIN (O12): the head is written, waiting posts take the freed place, and their blocks resume. -/

namespace Sys2Proof.Machine

variable {s : State}

/-! ### The grant -/

theorem exec_drain {e : Post} {rest : List Post} (hq : s.queue = e :: rest) (hg : s.granted = some .queue) :
    exec .insertQueueDrain s = .next (s.drainHead e rest) := by
  simp [exec, execInsertQueueDrain, hq, hg]

/-- With a full queue a drain does not end drain mode (R23). -/
theorem State.popQueue_of_full {rest : List Post} (hl : rest.length = 15) :
    s.popQueue rest = { s with queue := rest, runCount := 0 } := by
  unfold State.popQueue
  rw [hl]
  simp [Config.drainOffAt]

/-- The state in which the block of the one accepted post resumes. -/
def State.drained (s : State) (e : Post) (rest : List Post) (w : WaitingPost) (ws : List WaitingPost) : State :=
  { s with queue := rest ++ [w.post], waiting := ws, runCount := 0, mem := writeLanes s.mem e.addr e.data .both }

/-- A post that fills the queue up does not change drain mode. -/
theorem State.accept_of_last_place {p : Post} (hl : s.queue.length = 15) (hq : queued s.queue p.addr = false) :
    s.accept p = { s with queue := s.queue ++ [p] } := by
  unfold State.accept
  rw [joinQueue_of_not_queued _ _ hq]
  simp [fillsToDrain, hl, Config.drainOnAt]

/-- The oldest waiting post takes the freed place, and its block resumes (R26, R27). -/
theorem exec_drain_of_waiting {e : Post} {rest : List Post} {w : WaitingPost} {ws : List WaitingPost}
    (hq : s.queue = e :: rest) (hl : rest.length = 15) (hg : s.granted = some .queue) (hw : s.waiting = w :: ws)
    (hnew : queued rest w.post.addr = false) :
    exec .insertQueueDrain s = .next (State.resumed ((s.drained e rest w ws).resume w) w) := by
  have haccept : (s.popQueue rest).accept w.post = { s with queue := rest ++ [w.post], runCount := 0 } := by
    rw [State.popQueue_of_full hl]
    exact State.accept_of_last_place (s := { s with queue := rest, runCount := 0 }) hl hnew
  have htake : State.acceptWaiting (w :: ws) (s.popQueue rest) =
      ({ s with queue := rest ++ [w.post], waiting := ws, runCount := 0 }, [w]) := by
    simp only [State.acceptWaiting]
    rw [haccept]
    simp [State.popQueue, hnew, hl, Config.queueCapacity]
  rw [exec_drain hq hg]
  unfold State.drainHead
  rw [hw, htake]
  rfl

/-! ### Resumption (R26, R51, R152) -/

theorem State.sendCommand_waiting (s : State) (n : LineNo) (k : CommandKind) : (s.sendCommand n k).waiting = s.waiting := by
  cases k with
  | setpoint | stop => rfl
  | mix =>
    simp only [State.sendCommand]
    cases (s.line n).copy <;> rfl

/-- An act makes no post wait. -/
theorem State.perform_waiting (s : State) (a : Act) : (s.perform a).waiting = s.waiting := by
  cases a with
  | answer v r st =>
    simp only [State.perform]
    cases s.cycle with
    | taken w => cases r <;> rfl
    | _ => rfl
  | ask | recordPosted => simp only [State.perform]; cases s.cycle <;> rfl
  | recordWritten =>
    simp only [State.perform, State.recordWritten]
    cases s.report.ring with
    | none => rfl
    | some r =>
      dsimp only
      split <;> rfl
  | enterStop n => exact s.sendCommand_waiting n .stop
  | requestCeiling n => simp only [State.perform, State.requestCeiling]; split <;> rfl
  | post | hand | request | restartRamp | stop | restart | rearm | observe | plantStop | tell | loadNotice | loadEnded
  | notifyLinks | setProducer | placed => rfl

theorem State.foldl_perform_waiting (s : State) (acts : List Act) : (acts.foldl State.perform s).waiting = s.waiting := by
  induction acts generalizing s with
  | nil => rfl
  | cons a rest ih => exact (ih _).trans (s.perform_waiting a)

/-- An operation whose first post waits again goes no further. -/
theorem State.resume_of_full {w : WaitingPost} {p : Post} {more : List Act} (hw : w.rest = .post p :: more)
    (hl : s.queue.length = 16) (hq : queued s.queue p.addr = false) :
    s.resume w = { s with waiting := s.waiting ++ [⟨w.block, p, more, w.cont⟩] } := by
  unfold State.resume State.operate
  rw [hw, State.runActs_of_full _ _ _ hl hq]

theorem State.resume_of_noPosts {w : WaitingPost} (hp : ∀ p, Act.post p ∉ w.rest) (hc : w.cont = none) :
    s.resume w = w.rest.foldl State.perform s := by
  unfold State.resume
  rw [hc, State.operate_of_noPosts _ _ _ hp]

/-- An operation with nothing left goes on to its continuation. -/
theorem State.resume_of_cont {w : WaitingPost} {c : Cont} (hw : w.rest = []) (hc : w.cont = some c) :
    s.resume w = ((s.startCont c).1.runActs w.block none (s.startCont c).2).1 := by
  unfold State.resume State.operate
  rw [hw, hc]
  rfl

/-- A sample whose measurement words are posted goes on to its checks (R94). -/
theorem State.resume_of_sampleChecks {w : WaitingPost} {n : LineNo} {x : Sample} {l : Line} {acts : List Act}
    (hb : w.block = .line n) (hw : w.rest = []) (hc : w.cont = some (.sampleChecks n x))
    (h : sampleChecks n (s.line n) x s.clock = (l, acts)) :
    s.resume w = ((s.setLine n l).runActs (.line n) none acts).1 := by
  rw [State.resume_of_cont hw hc, hb]
  simp only [State.startCont, h]

theorem State.startCont_takePending (s : State) (n : LineNo) : s.startCont (.takePending n) = s.takePending n := rfl

theorem State.resumed_of_plain {w : WaitingPost} (hb : w.block = .alert ∨ w.block = .report ∨ w.block = .passThrough) :
    s.resumed w = s := by
  unfold State.resumed
  rcases hb with hb | hb | hb <;> rw [hb] <;> rfl

theorem State.resumed_of_line {w : WaitingPost} {n : LineNo} (hb : w.block = .line n)
    (hc : ∀ v x r b, s.cycle ≠ .answered v x r b) : s.resumed w = s := by
  unfold State.resumed
  rw [hb]
  exact State.react_of_not_answered hc

theorem State.resumed_of_config {w : WaitingPost} (hb : w.block = .config) (hn : ∀ n, s.noOwn n) : s.resumed w = s := by
  unfold State.resumed
  rw [hb]
  exact State.flushAll_of_noOwn hn

/-- A controller whose post waits again takes none of its own events. -/
theorem State.flush_of_busy {n : LineNo} (hb : s.busy (.link n) = true) : s.flush n = s := by
  unfold State.flush
  generalize (s.link n).arrivals.length = k
  cases k with
  | zero => rfl
  | succ k =>
    unfold State.flushLink
    rw [if_pos hb]

theorem State.resumed_of_link_busy {w : WaitingPost} {n : LineNo} (hb : w.block = .link n)
    (hbusy : s.busy (.link n) = true) : s.resumed w = s := by
  unfold State.resumed
  rw [hb]
  simp only [State.endWait, hbusy, if_true, State.afterOperation]
  exact State.flush_of_busy hbusy

theorem State.noOwn_markWaited {n : LineNo} (hn : s.noOwn n) : (s.markWaited n).noOwn n := by
  unfold State.noOwn State.markWaited
  rw [State.link_setLink_same]
  intro a ha
  obtain ⟨b, hb, rfl⟩ := List.mem_map.mp ha
  exact hn b hb

/-- A controller whose operation has ended marks the events that waited behind it, and has none of its own (R152). -/
theorem State.resumed_of_link {w : WaitingPost} {n : LineNo} (hb : w.block = .link n) (hn : s.noOwn n)
    (hbusy : s.busy (.link n) = false) : s.resumed w = waitedOut s n := by
  unfold State.resumed
  rw [hb]
  simp only [State.endWait, hbusy, Bool.false_eq_true, if_false, State.afterOperation]
  exact State.flush_of_noOwn _ n (State.noOwn_markWaited hn)

theorem State.busy_eq_false {b : Block} (h : ∀ w ∈ s.waiting, w.block ≠ b) : s.busy b = false := by
  rw [← Bool.not_eq_true, State.busy_iff]
  rintro ⟨w, hw, hb⟩
  exact h w hw hb

/-- A post that waits again, whatever its block. -/
theorem State.resumed_of_waiting_again {w : WaitingPost} (hbusy : s.busy w.block = true)
    (hc : ∀ v x r b, s.cycle ≠ .answered v x r b) (hn : ∀ n, s.noOwn n) : s.resumed w = s := by
  cases hb : w.block with
  | passThrough => exact State.resumed_of_plain (.inr (.inr hb))
  | alert => exact State.resumed_of_plain (.inl hb)
  | report => exact State.resumed_of_plain (.inr (.inl hb))
  | line n => exact State.resumed_of_line hb hc
  | config => exact State.resumed_of_config hb hn
  | link n => exact State.resumed_of_link_busy hb (hb ▸ hbusy)

theorem State.busy_append (s : State) (w : WaitingPost) :
    State.busy { s with waiting := s.waiting ++ [w] } w.block = true :=
  (State.busy_iff _ _).mpr ⟨w, List.mem_append_right _ (List.mem_singleton_self w), rfl⟩

/-! ### A resumption at PENDING (R142, R143) -/

theorem State.sendCommand_arrivals (s : State) (n : LineNo) (k : CommandKind) :
    ((s.sendCommand n k).link n).arrivals = (s.link n).arrivals := by
  cases k with
  | setpoint => simp [State.sendCommand, State.link, State.setLink, State.setLine]
  | stop => simp [State.sendCommand, State.link, State.setLink]
  | mix =>
    simp only [State.sendCommand]
    cases (s.line n).copy <;> simp [State.link, State.setLink, State.useFree]

/-- PENDING has no head to take, or the wire, the slot or a waiting STOP keeps it (R139, R140). -/
theorem State.takePending_of_none {n : LineNo}
    (h : (s.link n).pending = [] ∨ (s.link n).wire ≠ .fill ∨ (s.link n).inFlight ≠ none ∨ (s.link n).stopWaiting = true) :
    s.takePending n = (s, []) := by
  unfold State.takePending
  cases hp : (s.link n).pending with
  | nil => simp [hp]
  | cons r rest =>
    simp only [hp]
    refine if_neg fun ⟨hw, hi, hst⟩ => ?_
    rcases h with h | h | h | h
    · rw [hp] at h
      cases h
    · exact h hw
    · exact h hi
    · rw [hst] at h
      cases h

/-- The head of PENDING is taken for sending (R140). -/
theorem State.takePending_of_head {n : LineNo} {r : RequestKind} {more : List RequestKind}
    (hp : (s.link n).pending = r :: more) (hw : (s.link n).wire = .fill) (hi : (s.link n).inFlight = none)
    (hst : (s.link n).stopWaiting = false) :
    s.takePending n =
      (State.sendCommand { s with links := s.links.set n { s.link n with pending := more } } n r.command,
        [.post (lastCommand n r.command (s.link n).downlinkSeq .awaiting)]) := by
  unfold State.takePending
  simp only [hp]
  exact if_pos ⟨hw, hi, hst⟩

theorem State.noOwn_sendCommand (s : State) {n : LineNo} {more : List RequestKind} {k : CommandKind} (hn : s.noOwn n) :
    (State.sendCommand { s with links := s.links.set n { s.link n with pending := more } } n k).noOwn n := by
  unfold State.noOwn
  rw [State.sendCommand_arrivals]
  have hlink := s.link_setLink_same n { s.link n with pending := more }
  unfold State.link State.setLink at hlink
  unfold State.link
  rw [hlink]
  exact hn

/-- The LAST COMMAND of the head of PENDING taken at a resumption finds its address queued: the operation ends. -/
theorem State.resumed_of_taken_queued {w : WaitingPost} {n : LineNo} {p : Post} (hb : w.block = .link n)
    (hq : queued s.queue p.addr = true) (hn : s.noOwn n) (hx : ∀ x ∈ s.waiting, x.block ≠ .link n) :
    State.resumed (State.runActs (.link n) none [.post p] s).1 w = waitedOut (s.accept p) n := by
  rw [State.runActs_post, if_pos (State.takesPost_of_queued_or_room (.inl hq))]
  exact State.resumed_of_link (s := s.accept p) hb hn (State.busy_eq_false hx)

/-- Or it finds no place and waits. -/
theorem State.resumed_of_taken_full {w : WaitingPost} {n : LineNo} {p : Post} (hb : w.block = .link n)
    (hl : s.queue.length = 16) (hq : queued s.queue p.addr = false) :
    State.resumed (State.runActs (.link n) none [.post p] s).1 w =
      { s with waiting := s.waiting ++ [⟨.link n, p, [], none⟩] } := by
  rw [State.runActs_of_full _ _ _ hl hq]
  exact State.resumed_of_link_busy hb (State.busy_append s ⟨.link n, p, [], none⟩)

/-! ### Several posts accepted (log 31) -/

theorem State.postAll_queue (s : State) (ps : List Post) : (s.postAll ps).queue = ps.foldl joinQueue s.queue := by
  unfold State.postAll
  induction ps generalizing s with
  | nil => rfl
  | cons p rest ih => exact ih (s.accept p)

/-- Posts change the queue and drain mode alone. -/
theorem foldl_resume_of_noPosts (ws : List WaitingPost) (h : ∀ w ∈ ws, (∀ p, Act.post p ∉ w.rest) ∧ w.cont = none) :
    ws.foldl State.resume s = ws.foldl (fun t w => w.rest.foldl State.perform t) s := by
  induction ws generalizing s with
  | nil => rfl
  | cons w rest ih =>
    obtain ⟨hp, hc⟩ := h w List.mem_cons_self
    rw [List.foldl_cons, List.foldl_cons, State.resume_of_noPosts hp hc, ih fun x hx => h x (List.mem_cons_of_mem _ hx)]

theorem foldl_resumed_fixed (ws : List WaitingPost) (h : ∀ w ∈ ws, s.resumed w = s) : ws.foldl State.resumed s = s := by
  induction ws with
  | nil => rfl
  | cons w rest ih =>
    rw [List.foldl_cons, h w List.mem_cons_self]
    exact ih fun x hx => h x (List.mem_cons_of_mem _ hx)

/-! ### The parts of the statement -/

/-- What a drain leaves in the RAM (R5, R27). -/
theorem writeLanes_both (m : List Host.Cell) (a : Addr) (v : Word) :
    Memory.get (writeLanes m a v .both) (wordAddr a).toNat = lowByte v ∧
    Memory.get (writeLanes m a v .both) ((wordAddr a).toNat + 1) = highByte v ∧
    ∀ b, b ≠ (wordAddr a).toNat → b ≠ (wordAddr a).toNat + 1 → Memory.get (writeLanes m a v .both) b = Memory.get m b :=
  ⟨writeLanes_get_low m a v .both, writeLanes_get_high m a v .both, fun _ => writeLanes_get_elsewhere m a v .both⟩

/-- With no post waiting a drain writes the head and nothing else. -/
theorem exec_drain_of_no_waiting {e : Post} {rest : List Post} (hq : s.queue = e :: rest) (hg : s.granted = some .queue)
    (hw : s.waiting = []) :
    exec .insertQueueDrain s =
      .next { s with
        queue := rest, drain := s.drain && rest.length != 4, runCount := 0, mem := writeLanes s.mem e.addr e.data .both } := by
  rw [exec_drain hq hg]
  unfold State.drainHead State.popQueue
  rw [hw]
  rfl

/-- Waiting posts for queued addresses, and the oldest of the others, are accepted by one drain; their blocks resume in
that order and end (log 31). -/
theorem exec_drain_of_several {e : Post} {rest : List Post} {first last ws : List WaitingPost} {u v : State}
    (hq : s.queue = e :: rest) (hl : rest.length = 15) (hn : (rest.map Post.addr).Nodup) (hg : s.granted = some .queue)
    (hw : s.waiting = first ++ last ++ ws) (hfirst : ∀ w ∈ first, queued rest w.post.addr = true)
    (hlast : last = [] ∧ ws = [] ∨ ∃ w, last = [w] ∧ queued rest w.post.addr = false)
    (hplain : ∀ w ∈ first ++ last, (∀ p, Act.post p ∉ w.rest) ∧ w.cont = none ∧
      (w.block = .alert ∨ w.block = .report ∨ w.block = .passThrough ∨ ∃ n, w.block = .line n))
    (hu : u = { s with
      queue := (State.postAll { s with queue := rest } ((first ++ last).map WaitingPost.post)).queue
      waiting := ws, drain := s.drain, runCount := 0, mem := writeLanes s.mem e.addr e.data .both })
    (hv : v = (first ++ last).foldl (fun t w => w.rest.foldl State.perform t) u)
    (hc : ∀ d x r b, v.cycle ≠ .answered d x r b) : exec .insertQueueDrain s = .next v := by
  have htake := State.acceptWaiting_several first last ws (s.popQueue rest) hl hn hfirst hlast
  have hqueue : ((s.popQueue rest).postAll ((first ++ last).map WaitingPost.post)).queue = u.queue := by
    rw [State.postAll_queue, hu]
    exact (State.postAll_queue { s with queue := rest } _).symm
  have hdrained : State.drainHead s e rest = State.resumeAll u (first ++ last) := by
    unfold State.drainHead
    rw [hw, htake, hqueue, State.popQueue_of_full hl, hu]
  rw [exec_drain hq hg, hdrained]
  unfold State.resumeAll
  rw [foldl_resume_of_noPosts _ fun w hw => ⟨(hplain w hw).1, (hplain w hw).2.1⟩, ← hv, foldl_resumed_fixed]
  intro w hw
  obtain ⟨-, -, hb⟩ := hplain w hw
  rcases hb with hb | hb | hb | ⟨n, hb⟩
  · exact State.resumed_of_plain (.inl hb)
  · exact State.resumed_of_plain (.inr (.inl hb))
  · exact State.resumed_of_plain (.inr (.inr hb))
  · exact State.resumed_of_line hb hc

/-- Settles O12: the acceptance of the waiting posts, and then the resumption of each block by what is left to it. -/
theorem aDrainWritesTheHeadAndFreesAPlace : Obligations.ADrainWritesTheHeadAndFreesAPlace := by
  unfold Obligations.ADrainWritesTheHeadAndFreesAPlace
  refine ⟨fun e rest s hq hg hw => ⟨_, exec_drain_of_no_waiting hq hg hw, rfl, writeLanes_both _ _ _⟩,
    fun e rest w ws s hq hl hg hw hnew hrest hcont hb => ?_,
    fun e rest first last ws s hq hl hn hg hw hfirst hlast hplain => ?_, fun e rest w ws s hq hl hg hw hnew => ?_⟩
  · have hexec := exec_drain_of_waiting hq hl hg hw hnew
    rw [State.resume_of_noPosts (by simp [hrest]) hcont, hrest, State.resumed_of_plain hb] at hexec
    obtain ⟨hlow, hhigh, -⟩ := writeLanes_both s.mem e.addr e.data
    exact ⟨_, hexec, rfl, rfl, rfl, rfl, rfl, rfl, rfl, hlow, hhigh⟩
  · obtain ⟨hlow, hhigh, hother⟩ := writeLanes_both s.mem e.addr e.data
    exact ⟨{ s with
        queue := (State.postAll { s with queue := rest } ((first ++ last).map WaitingPost.post)).queue
        waiting := ws, drain := s.drain, runCount := 0, mem := writeLanes s.mem e.addr e.data .both }, _, rfl, hlow, hhigh,
      hother, rfl, exec_drain_of_several hq hl hn hg hw hfirst hlast hplain rfl rfl⟩
  · have hexec := exec_drain_of_waiting hq hl hg hw hnew
    have hfull : (s.drained e rest w ws).queue.length = 16 := by simp [State.drained, hl]
    obtain ⟨hlow, hhigh, hother⟩ := writeLanes_both s.mem e.addr e.data
    refine ⟨s.drained e rest w ws, rfl, hlow, hhigh, hother, fun p more hr hp hc hn => ?_,
      fun v hp hcont hv => ⟨fun hb => ?_, fun n hb hc => ?_, fun hb hn => ?_, fun n hb hn hx => ?_⟩,
      fun n x l acts hb hr hcont hc hchecks => ⟨fun ha => ?_, fun p more ha hp => ?_⟩,
      fun n hb hr hcont hn hx => ⟨fun hnone => ?_, fun r more p hpend hwire hslot hstop hpost => ⟨fun hp => ?_, fun hp => ?_⟩⟩⟩
    · rw [hexec, State.resume_of_full hr hfull hp]
      exact congrArg _ (State.resumed_of_waiting_again
        (State.busy_append (s.drained e rest w ws) ⟨w.block, p, more, w.cont⟩) hc hn)
    · rw [hexec, State.resume_of_noPosts hp hcont, ← hv, State.resumed_of_plain hb]
    · rw [hexec, State.resume_of_noPosts hp hcont, ← hv, State.resumed_of_line hb hc]
    · rw [hexec, State.resume_of_noPosts hp hcont, ← hv, State.resumed_of_config hb hn]
    · have hwait : v.waiting = ws := by
        rw [hv, State.foldl_perform_waiting]
        rfl
      rw [hexec, State.resume_of_noPosts hp hcont, ← hv, State.resumed_of_link hb hn (State.busy_eq_false (hwait ▸ hx))]
    · rw [hexec, State.resume_of_sampleChecks (s := s.drained e rest w ws) hb hr hcont hchecks, ha]
      exact congrArg _ (State.resumed_of_line hb hc)
    · rw [hexec, State.resume_of_sampleChecks (s := s.drained e rest w ws) hb hr hcont hchecks, ha,
        State.runActs_of_full (s := (s.drained e rest w ws).setLine n l) _ _ _ hfull hp]
      exact congrArg _ (State.resumed_of_line hb hc)
    · rw [hexec, State.resume_of_cont hr hcont, State.startCont_takePending,
        State.takePending_of_none (s := s.drained e rest w ws) hnone]
      exact congrArg _ (State.resumed_of_link hb hn (State.busy_eq_false hx))
    · subst hpost
      rw [hexec, State.resume_of_cont hr hcont, State.startCont_takePending,
        State.takePending_of_head (s := s.drained e rest w ws) hpend hwire hslot hstop, hb]
      exact congrArg _ (State.resumed_of_taken_queued hb ((State.sendCommand_queue _ n _).symm ▸ hp)
        (State.noOwn_sendCommand (s.drained e rest w ws) hn) ((State.sendCommand_waiting _ n _).symm ▸ hx))
    · subst hpost
      rw [hexec, State.resume_of_cont hr hcont, State.startCont_takePending,
        State.takePending_of_head (s := s.drained e rest w ws) hpend hwire hslot hstop, hb]
      refine (congrArg _ (State.resumed_of_taken_full hb ?_ ?_)).trans ?_
      · exact (congrArg List.length (State.sendCommand_queue _ n _)).trans hfull
      · exact (State.sendCommand_queue _ n _).symm ▸ hp
      · rw [State.sendCommand_waiting]
        rfl

end Sys2Proof.Machine
end
-- ==== Sys2Proof/Proofs/StartUp.lean ====
section
/-! PROOFS. RESET (O3): whatever the order of the blocks, the start-up posts fill the queue and the rest of them wait. -/

namespace Sys2Proof.Machine

/-! ### The order of the blocks (log 7) -/

theorem nodup_eraseDups {α : Type} [BEq α] [LawfulBEq α] (l : List α) : l.eraseDups.Nodup := by
  induction h : l.length using Nat.strong_induction_on generalizing l with
  | _ k ih =>
    cases l with
    | nil => exact List.nodup_nil
    | cons a rest =>
      rw [List.eraseDups_cons, List.nodup_cons]
      have hlen := List.length_filter_le (fun b => !b == a) rest
      rw [List.length_cons] at h
      exact ⟨by simp [List.mem_eraseDups], ih _ (by omega) _ rfl⟩

theorem mem_startUpBlocks {b : Block} (h : b ≠ .passThrough) : b ∈ startUpBlocks := by
  cases b with
  | passThrough => exact absurd rfl h
  | line n | link n => revert n; decide
  | alert | config | report => decide

/-- Every block that has start-up posts is in the order once. -/
theorem startUpOrder_perm (order : List Block) :
    (startUpOrder order).Perm startUpBlocks ∨ (startUpOrder order).Perm (.passThrough :: startUpBlocks) := by
  have hnodup : startUpBlocks.Nodup := by decide
  have hout : Block.passThrough ∉ startUpBlocks := by decide
  have hmem (b : Block) : b ∈ startUpOrder order ↔ b ∈ order ∨ b ∈ startUpBlocks := by
    rw [startUpOrder, List.mem_eraseDups, List.mem_append]
  by_cases hp : Block.passThrough ∈ order
  · refine .inr ((List.perm_ext_iff_of_nodup (nodup_eraseDups _) (List.nodup_cons.mpr ⟨hout, hnodup⟩)).mpr fun b => ?_)
    change b ∈ startUpOrder order ↔ _
    rw [hmem, List.mem_cons]
    by_cases hb : b = .passThrough
    · subst hb
      simp [hp]
    · simp [hb, mem_startUpBlocks hb]
  · refine .inl ((List.perm_ext_iff_of_nodup (nodup_eraseDups _) hnodup).mpr fun b => ?_)
    change b ∈ startUpOrder order ↔ _
    rw [hmem]
    by_cases hb : b = .passThrough
    · subst hb
      simp [hp]
    · simp [mem_startUpBlocks hb]

theorem startUpActs_eq (b : Block) : startUpActs b = (postsOf (startUpActs b)).map .post := by
  cases b <;> rfl

/-- All the start-up posts are those of R175, in some order. -/
theorem startUpPosts_perm (order : List Block) :
    ((startUpOrder order).flatMap fun b => postsOf (startUpActs b)).Perm startUpPosts := by
  have hall : startUpBlocks.flatMap (fun b => postsOf (startUpActs b)) = startUpPosts := by decide
  rcases startUpOrder_perm order with h | h
  · rw [← hall]
    exact h.flatMap_right _
  · rw [← hall]
    exact h.flatMap_right fun b => postsOf (startUpActs b)

/-! ### The posts, made with no drain between them -/

/-- The posts an operation still has to make. -/
def WaitingPost.posts (w : WaitingPost) : List Post := w.post :: postsOf w.rest

/-- The state after some start-up posts: they are queued, in whatever places, or wait on a full queue. -/
structure StartUp (base : State) (done : List Post) (t : State) : Prop where
  shape : t = { base with queue := t.queue, waiting := t.waiting, drain := t.drain }
  perm : (t.queue ++ t.waiting.flatMap WaitingPost.posts).Perm done
  rests : ∀ w ∈ t.waiting, w.cont = none ∧ w.rest = (postsOf w.rest).map .post
  length : t.queue.length ≤ 16
  full : t.waiting ≠ [] → t.queue.length = 16
  drain : t.drain = decide (12 ≤ t.queue.length)

theorem postsOf_map_post (ps : List Post) : postsOf (ps.map .post) = ps := by
  induction ps with
  | nil => rfl
  | cons p rest ih => exact congrArg (p :: ·) ih

theorem StartUp.queued {base t : State} {done ps : List Post} {p : Post} (h : StartUp base done t)
    (hn : ((done ++ p :: ps).map Post.addr).Nodup) : queued t.queue p.addr = false := by
  rw [← Bool.not_eq_true, queued_iff]
  rintro ⟨e, he, ha⟩
  rw [List.map_append, List.map_cons, List.nodup_append] at hn
  exact hn.2.2 _ (List.mem_map_of_mem (h.perm.mem_iff.mp (List.mem_append_left _ he))) _ List.mem_cons_self ha

/-- A start-up post that finds room stands at the tail. -/
theorem StartUp.accept {base t : State} {done : List Post} {p : Post} (h : StartUp base done t)
    (hq : Machine.queued t.queue p.addr = false) (hl : t.queue.length < 16) : StartUp base (done ++ [p]) (t.accept p) := by
  have hnone : t.waiting = [] := by
    by_contra hw
    exact Nat.ne_of_lt hl (h.full hw)
  have hqueue : (t.accept p).queue = t.queue ++ [p] := joinQueue_of_not_queued _ p hq
  have hlen : (t.accept p).queue.length = t.queue.length + 1 := by rw [hqueue, List.length_append, List.length_singleton]
  refine ⟨?_, ?_, h.rests, ?_, fun hw => absurd hnone hw, ?_⟩
  · conv_lhs => rw [State.accept, h.shape]
    rfl
  · have hperm := h.perm
    rw [State.accept_waiting, hqueue]
    rw [hnone, List.flatMap_nil, List.append_nil] at hperm ⊢
    exact hperm.append_right [p]
  · rw [hlen]
    exact hl
  · rw [State.accept_drain_of_new hq, h.drain, hlen, Bool.eq_iff_iff]
    simp only [Bool.or_eq_true, decide_eq_true_eq, beq_iff_eq]
    omega

theorem StartUp.runActs {base t : State} {done : List Post} (b : Block) (ps : List Post) (h : StartUp base done t)
    (hn : ((done ++ ps).map Post.addr).Nodup) :
    StartUp base (done ++ ps) (State.runActs b none (ps.map .post) t).1 := by
  induction ps generalizing t done with
  | nil => rwa [List.append_nil]
  | cons p rest ih =>
    have hq := h.queued hn
    rw [List.map_cons]
    rcases Nat.lt_or_eq_of_le h.length with hl | hl
    · rw [State.runActs_post, if_pos (State.takesPost_of_queued_or_room (.inr hl)), List.append_cons]
      exact ih (h.accept hq hl) (by rwa [← List.append_cons])
    · rw [State.runActs_of_full _ _ _ hl hq]
      refine ⟨?_, ?_, ?_, h.length, fun _ => hl, h.drain⟩
      · conv_lhs => rw [h.shape]
      · rw [List.flatMap_append, ← List.append_assoc, List.flatMap_singleton, WaitingPost.posts, postsOf_map_post]
        exact h.perm.append_right _
      · intro w hw
        rcases List.mem_append.mp hw with hw | hw
        · exact h.rests w hw
        · rw [List.mem_singleton.mp hw, postsOf_map_post]
          exact ⟨rfl, rfl⟩

theorem State.operate_of_no_cont (s : State) (b : Block) (acts : List Act) :
    s.operate b acts none = (State.runActs b none acts s).1 := by
  unfold State.operate
  split
  · next heq => rw [heq]
  · next heq => rw [heq]

theorem StartUp.blocks {base t : State} {done : List Post} (bs : List Block) (h : StartUp base done t)
    (hn : ((done ++ bs.flatMap fun b => postsOf (startUpActs b)).map Post.addr).Nodup) :
    StartUp base (done ++ bs.flatMap fun b => postsOf (startUpActs b))
      (bs.foldl (fun t b => t.operate b (startUpActs b) none) t) := by
  induction bs generalizing t done with
  | nil => rwa [List.flatMap_nil, List.append_nil]
  | cons b rest ih =>
    rw [List.flatMap_cons, ← List.append_assoc] at hn ⊢
    rw [List.foldl_cons, State.operate_of_no_cont, startUpActs_eq b]
    refine ih ?_ ?_
    · simp only [postsOf_map_post]
      refine h.runActs b _ ?_
      rw [List.map_append] at hn
      exact hn.of_append_left
    · simpa only [postsOf_map_post] using hn

/-- RESET makes all its posts (R175). -/
theorem exec_reset (order : List Block) (s : State) :
    ∃ t, exec (.reset order) s = .next t ∧
      StartUp { State.cleared with pending := s.pending, mem := s.mem, freeCount := s.freeCount }
        ((startUpOrder order).flatMap fun b => postsOf (startUpActs b)) t := by
  refine ⟨_, rfl, ?_⟩
  rw [← List.nil_append (List.flatMap _ _)]
  refine StartUp.blocks _ ⟨rfl, List.Perm.refl _, nofun, Nat.zero_le _, fun h => absurd rfl h, rfl⟩ ?_
  rw [List.nil_append, ((startUpPosts_perm order).map _).nodup_iff]
  decide

/-- Settles O3: the start-up posts of every order are the same 21, of which 16 fill the queue. -/
theorem resetLeavesEveryBlockAtItsResetState : Obligations.ResetLeavesEveryBlockAtItsResetState := by
  unfold Obligations.ResetLeavesEveryBlockAtItsResetState
  intro order s
  obtain ⟨t, hexec, h⟩ := exec_reset order s
  have hperm := h.perm.trans (startUpPosts_perm order)
  have hfull : t.queue.length = 16 := by
    refine h.full fun hw => ?_
    have hlen := hperm.length_eq
    rw [hw, List.flatMap_nil, List.append_nil] at hlen
    have := h.length
    rw [hlen] at this
    exact absurd this (by decide)
  have hdrain : t.drain = true := by
    rw [h.drain, hfull]
    rfl
  have hshape := h.shape
  rw [hdrain] at hshape
  have hlines (n : LineNo) : t.line n = {} := by
    rw [State.line, congrArg State.lines hshape]
    simp [State.cleared]
  have hlinks (n : LineNo) : t.link n = {} := by
    rw [State.link, congrArg State.links hshape]
    simp [State.cleared]
  have hbinding (st : StageNo) : t.bindingOf st = none := by
    rw [State.bindingOf, congrArg State.binding hshape]
    simp [State.cleared]
  have hmem {p : Post} : p ∈ t.queue ∨ (∃ w ∈ t.waiting, p ∈ w.posts) ↔ p ∈ startUpPosts := by
    rw [← hperm.mem_iff, List.mem_append, List.mem_flatMap]
  refine ⟨t, hexec, (congrArg State.mem hshape :), congrArg State.clock hshape, congrArg State.cycle hshape,
    congrArg State.refusal hshape, congrArg State.oldRing hshape, congrArg State.port hshape, congrArg State.runCount hshape,
    congrArg State.jobs hshape, hbinding, hlines, hlinks, congrArg State.observations hshape, congrArg State.alert hshape,
    congrArg State.report hshape, congrArg State.config hshape, hshape, hfull, fun p hp => ?_, fun p hp => hmem.mp (.inl hp),
    fun w hw => ⟨hmem.mp (.inr ⟨w, hw, List.mem_cons_self⟩), (h.rests w hw).1, fun a ha => ?_⟩⟩
  · refine (hmem.mpr hp).imp_right fun ⟨w, hw, hpw⟩ => ⟨w, hw, (List.mem_cons.mp hpw).imp Eq.symm fun hrest => ?_⟩
    rw [(h.rests w hw).2]
    exact List.mem_map_of_mem hrest
  · rw [(h.rests w hw).2] at ha
    obtain ⟨p, hp, rfl⟩ := List.mem_map.mp ha
    exact ⟨p, hmem.mp (.inr ⟨w, hw, List.mem_cons_of_mem _ hp⟩), rfl⟩

end Sys2Proof.Machine
end
-- ==== Sys2Proof/Proofs/GuardCommands.lean ====
section
/-! PROOFS. The guard commands and the Alert Controller (O14 to O17). -/

namespace Sys2Proof.Machine

variable {s : State}

/-! ### Words -/

/-- A code in the high byte beside a number in the low byte. -/
theorem shiftLeft_or_eq_wordOf (h : Byte) (l : Word) (hl : l.toNat < 256) : h.setWidth 16 <<< 8 ||| l = wordOf h (lowByte l) := by
  have hhigh (i : Nat) (hi : 8 ≤ i) : l.getLsbD i = false := by
    have h256 : 2 ^ 8 ≤ 2 ^ i := Nat.pow_le_pow_right (by decide) hi
    exact Nat.testBit_eq_false_of_lt (Nat.lt_of_lt_of_le hl h256)
  apply BitVec.eq_of_getLsbD_eq
  intro i hi
  rw [getLsbD_wordOf, BitVec.getLsbD_or, BitVec.getLsbD_shiftLeft, BitVec.getLsbD_setWidth]
  by_cases h8 : i < 8
  · simp [h8, lowByte]
  · rw [hhigh i (Nat.le_of_not_lt h8), if_neg h8]
    simp [h8, hi, show i - 8 < 16 by omega]

theorem guardOutcomeWord_eq (code : Byte) (o : GuardOutcome) : guardOutcomeWord code 0 o = wordOf code (lowByte o.code) := by
  unfold guardOutcomeWord
  rw [← shiftLeft_or_eq_wordOf code o.code (by cases o <;> decide)]
  exact congrArg (· ||| o.code) (BitVec.or_zero)

/-- The outcome of a guard command, in the form of the statements. -/
theorem guardPost_eq (code : Byte) (o : GuardOutcome) :
    guardPost code 0 o = .post (statusWord 1 (wordOf code (lowByte o.code))) := by
  rw [guardPost, guardOutcomeWord_eq]
  rfl

/-! ### Commands without effect (R61, R156) -/

/-- A guard command is taken on an idle bus by the free Alert Controller. -/
theorem State.presentGuard_alert (hc : s.cycle = .idle) (hb : s.busy .alert = false) (code arg : Byte) (hcode : code ≠ 0x04) :
    s.presentGuard code arg = (s.taking 0xFF840 (wordOf code arg)).guardCommand code :=
  s.presentGuard_of_idle hc code arg hcode hb

theorem State.guardCommand_of_unknown (s : State) {code : Byte} (h : 5 ≤ code.toNat) :
    s.guardCommand code = s.guardUnknown code := by
  have hne (b : Byte) (hb : b.toNat < 5) : code ≠ b := by
    rintro rfl
    exact absurd h (Nat.not_le.mpr hb)
  unfold State.guardCommand
  rw [if_neg (hne 0x00 (by decide)), if_neg (hne 0x01 (by decide)), if_neg (hne 0x02 (by decide)),
    if_neg (hne 0x03 (by decide))]

theorem State.lineControl_of_unknown (s : State) (n : LineNo) {code arg : Byte} (h : 9 ≤ code.toNat) :
    s.lineControl n code arg = s.decline n code .unknown := by
  have hne (b : Byte) (hb : b.toNat < 9) : code ≠ b := by
    rintro rfl
    exact absurd h (Nat.not_le.mpr hb)
  unfold State.lineControl
  rw [if_neg (hne 0x00 (by decide)), if_neg (hne 0x01 (by decide)), if_neg (hne 0x02 (by decide)),
    if_neg (hne 0x03 (by decide)), if_neg (hne 0x04 (by decide)), if_neg (hne 0x05 (by decide)),
    if_neg (hne 0x06 (by decide)), if_neg (hne 0x07 (by decide)), if_neg (hne 0x08 (by decide))]

/-- A supervisor that takes a write posts an outcome and asks for the port: a declined command (R61). -/
theorem State.decline_of_taking (hroom : s.room 1) (n : LineNo) (code arg : Byte) (o : LineOutcome) :
    (s.taking (lineAddr n 0) (wordOf code arg)).decline n code o =
      State.postAll { s with cycle := .write (fullWrite (lineAddr n 0) (wordOf code arg)) }
        [lineWord n 5 (wordOf code o.code)] :=
  State.operation_line (s := s.taking (lineAddr n 0) (wordOf code arg)) n _ hroom nofun

/-- Settles O14: commands of code 0 only ask for the port, those of an unknown code post UNKNOWN first. -/
theorem noCommandAndUnknownCodes : Obligations.NoCommandAndUnknownCodes := by
  unfold Obligations.NoCommandAndUnknownCodes
  refine ⟨fun code arg s hc hb => ⟨?_, fun hcode hroom => ?_⟩, fun n code arg s hc hb => ⟨?_, fun hcode hroom => ?_⟩⟩
  · exact congrArg Host.Outcome.next (State.presentGuard_alert hc hb 0x00 arg (by decide))
  · have hcode4 : code ≠ 0x04 := by
      rintro rfl
      exact absurd hcode (by decide)
    refine congrArg Host.Outcome.next ((State.presentGuard_alert hc hb code arg hcode4).trans ?_)
    rw [State.guardCommand_of_unknown _ hcode, State.guardUnknown, guardPost_eq]
    exact State.operation_alert (s := s.taking 0xFF840 (wordOf code arg)) _ hroom
  · refine congrArg Host.Outcome.next ((s.presentControl_of_idle hc n 0x00 arg hb
      (s.releaseWaits_of_code n (by decide))).trans ?_)
    exact State.operation_line_noPosts (s := s.taking (lineAddr n 0) (wordOf 0 arg)) n [.ask] (by simp [Act.isPost]) nofun
  · have hcode6 : code ≠ 0x06 := by
      rintro rfl
      exact absurd hcode (by decide)
    refine congrArg Host.Outcome.next ((s.presentControl_of_idle hc n code arg hb (s.releaseWaits_of_code n hcode6)).trans ?_)
    rw [State.lineControl_of_unknown _ _ hcode]
    exact State.decline_of_taking hroom n code arg .unknown

/-! ### The pending set (R154, R155, R157) -/

theorem getLsbD_bit (c : AlertClass) (k : Nat) : (1#6 <<< c.bit).getLsbD k = (k == c.bit) := by
  by_cases hk : k < 6
  · cases c <;> interval_cases k <;> decide
  · have hbit : c.bit < 6 := by cases c <;> decide
    rw [BitVec.getLsbD_of_ge _ _ (Nat.le_of_not_lt hk), eq_comm, beq_eq_false_iff_ne]
    omega

/-- A class that joins the pending set adds its bit. -/
theorem AlertUnit.join_pending (a : AlertUnit) (c : AlertClass) (config : ConfigUnit) (k : Nat) :
    (a.join c config).pending.getLsbD k = (a.pending.getLsbD k || k == c.bit) := by
  rw [← getLsbD_bit]
  exact BitVec.getLsbD_or

/-- A class that is acknowledged has its bit cleared. -/
theorem AlertUnit.remove_pending (a : AlertUnit) (c : AlertClass) (mask : Word) (k : Nat) :
    (a.remove c mask).pending.getLsbD k = (a.pending.getLsbD k && k != c.bit) := by
  have h : (a.remove c mask).pending.getLsbD k = (a.pending &&& ~~~(1#6 <<< c.bit)).getLsbD k := rfl
  rw [h, BitVec.getLsbD_and, BitVec.getLsbD_not, getLsbD_bit]
  by_cases hk : k < 6
  · rw [decide_eq_true hk, Bool.true_and]
    rfl
  · rw [BitVec.getLsbD_of_ge _ _ (Nat.le_of_not_lt hk), Bool.false_and, Bool.false_and]

/-- R157: the pending class of lowest bit has the highest priority. -/
theorem highestClass_eq_some {p : BitVec 6} {c : AlertClass} (hc : p.getLsbD c.bit = true)
    (hlow : ∀ k, k < c.bit → p.getLsbD k = false) : highestClass p = some c := by
  unfold highestClass
  cases c with
  | trip => exact if_pos hc
  | communication => rw [hlow 0 (by decide)]; exact if_pos hc
  | stageEnd => rw [hlow 0 (by decide), hlow 1 (by decide)]; exact if_pos hc
  | link => rw [hlow 0 (by decide), hlow 1 (by decide), hlow 2 (by decide)]; exact if_pos hc
  | refusal => rw [hlow 0 (by decide), hlow 1 (by decide), hlow 2 (by decide), hlow 3 (by decide)]; exact if_pos hc
  | ring =>
    rw [hlow 0 (by decide), hlow 1 (by decide), hlow 2 (by decide), hlow 3 (by decide), hlow 4 (by decide)]
    exact if_pos hc

theorem highestClass_zero : highestClass 0 = none := by decide

/-- Status word 2 (11.2). -/
theorem alertPendingWord_getLsbD (a : AlertUnit) (k : Nat) :
    (alertPendingWord a).getLsbD k = (decide (k < 6) && a.pending.getLsbD k || k == 15 && a.alert) := by
  have hlevel : (if a.alert then (0x8000 : Word) else 0).getLsbD k = (k == 15 && a.alert) := by
    cases a.alert with
    | false => simp
    | true =>
      by_cases hk : k < 16
      · interval_cases k <;> rfl
      · rw [if_pos rfl, BitVec.getLsbD_of_ge _ _ (Nat.le_of_not_lt hk), eq_comm, Bool.and_true, beq_eq_false_iff_ne]
        omega
  unfold alertPendingWord
  rw [BitVec.getLsbD_or, hlevel, Bool.or_comm, BitVec.getLsbD_setWidth]
  by_cases hk : k < 6
  · rw [decide_eq_true hk, decide_eq_true (Nat.lt_trans hk (by decide))]
  · rw [BitVec.getLsbD_of_ge _ _ (Nat.le_of_not_lt hk), Bool.and_false, Bool.and_false]

/-- The Alert Controller takes the oldest raise of a class from among those of others (logs 29, 39). -/
theorem exec_alertRaise {c : AlertClass} {ofTrip : Bool} {before rest : List Raise} (hb : s.busy .alert = false)
    (hraises : s.alert.raises = before ++ ⟨c, ofTrip⟩ :: rest) (hbefore : ∀ r ∈ before, r.cls ≠ c) :
    exec (.alertRaise c) s =
      .next (State.takeRaise { s with alert := { s.alert with raises := before ++ rest } } c) := by
  have hx := extractFirst_append (fun r : Raise => r.cls == c) before rest ⟨c, ofTrip⟩ (by simp) (by simpa using hbefore)
  simp [exec, execAlertRaise, hb, hraises, hx]

/-- ACKNOWLEDGE with a class pending (R157). -/
theorem exec_acknowledge {c : AlertClass} (hc : s.cycle = .idle) (hb : s.busy .alert = false) (hroom : s.room 2) (arg : Byte)
    (hclass : highestClass s.alert.pending = some c) :
    exec (.acknowledge arg) s = .next (State.postAll
      { s with cycle := .write (fullWrite 0xFF840 (wordOf 1 arg)), alert := s.alert.remove c s.config.mask }
      [statusWord 2 (alertPendingWord (s.alert.remove c s.config.mask)),
        statusWord 1 (BitVec.ofNat 16 (0x0101 + 16 * (c.bit + 1)))]) := by
  have hword : guardOutcomeWord 0x01 (c.bit + 1) .done = BitVec.ofNat 16 (0x0101 + 16 * (c.bit + 1)) := by
    cases c <;> rfl
  refine congrArg Host.Outcome.next ((State.presentGuard_alert hc hb 0x01 arg (by decide)).trans ?_)
  rw [← hword]
  change State.guardAcknowledge _ = _
  unfold State.guardAcknowledge
  rw [show highestClass (s.taking 0xFF840 (wordOf 0x01 arg)).alert.pending = some c from hclass]
  exact State.operation_alert (s := { s.taking 0xFF840 (wordOf 0x01 arg) with alert := s.alert.remove c s.config.mask }) _ hroom

/-- Settles O15: the set by its bits, the level by the formula of R155. -/
theorem raisesAndAcknowledgementsChangeThePendingSet : Obligations.RaisesAndAcknowledgementsChangeThePendingSet := by
  unfold Obligations.RaisesAndAcknowledgementsChangeThePendingSet
  refine ⟨fun c ofTrip before rest s hb hroom hraises hbefore => ⟨fun hp => ?_, fun hp => ?_⟩,
    fun arg s hc hb hroom => ⟨fun hp => ?_, fun c hp hlow => ?_⟩, alertPendingWord_getLsbD, rfl, alertLevel_iff,
    fun c => ⟨fun h => ?_, fun i h => ?_⟩⟩
  · rw [exec_alertRaise hb hraises hbefore, State.takeRaise]
    exact congrArg _ (if_pos hp)
  · rw [exec_alertRaise hb hraises hbefore, State.takeRaise, if_neg (by simp [hp])]
    refine ⟨_, congrArg _ (State.operation_alert _ hroom), rfl, rfl, fun k => ?_, rfl, rfl⟩
    exact AlertUnit.join_pending _ c s.config k
  · refine congrArg Host.Outcome.next ((State.presentGuard_alert hc hb 0x01 arg (by decide)).trans ?_)
    change State.guardAcknowledge _ = _
    unfold State.guardAcknowledge
    rw [show (s.taking 0xFF840 (wordOf 0x01 arg)).alert.pending = 0 from hp, highestClass_zero]
    exact State.operation_alert (s := s.taking 0xFF840 (wordOf 0x01 arg)) _ (Nat.le_trans (Nat.le_succ _) hroom)
  · exact ⟨_, exec_acknowledge hc hb hroom arg (highestClass_eq_some hp hlow), rfl, rfl,
      AlertUnit.remove_pending _ c _, rfl, rfl⟩
  · rw [ConfigUnit.mask, ConfigUnit.word, h]
  · rw [ConfigUnit.mask, ConfigUnit.word, h]
    rfl

/-! ### PLANT STOP asserted (R159, R160, R162) -/

theorem State.lines_toList (s : State) : s.lines.toList = allLines.map s.line := by
  refine List.ext_getElem (by simp [allLines]) fun i hi _ => ?_
  have hi : i < 8 := by simpa using hi
  interval_cases i <;> simp [allLines, State.line]

/-- R162: the count of the lines INJECTING or CLOSING. -/
theorem State.flowingLines_eq (s : State) :
    s.flowingLines = (allLines.filter fun n => (s.line n).state = .injecting ∨ (s.line n).state = .closing).length := by
  unfold State.flowingLines
  rw [s.lines_toList, List.filter_map, List.length_map]
  congr 2
  funext n
  rw [Bool.eq_iff_iff]
  simp [LineState.flowing]

theorem plantStopWord_of_some {a : AlertUnit} {c : PlantCause} (h : a.plantStop = some c) :
    plantStopWord a = ((0x8000 : Word) ||| (c.code <<< 12)) ||| (lowWord a.assertedAt &&& 0x0FFF) := by
  unfold plantStopWord
  rw [h, BitVec.or_comm]
  rfl

theorem plantStopWord_of_none {a : AlertUnit} (h : a.plantStop = none) : plantStopWord a = lowWord a.assertedAt &&& 0x0FFF := by
  unfold plantStopWord
  rw [h]
  exact BitVec.or_zero

/-- STOP_ALL from released (R159). -/
theorem State.guardStopAll_of_released (hroom : s.room 2) (v : Word) (hp : s.alert.plantStop = none) :
    (s.taking 0xFF840 v).guardStopAll =
      State.postAll
        { s with
          cycle := .write (fullWrite 0xFF840 v)
          alert := s.alert.assertStop .stopAll s.clock
          lines := s.lines.map fun l => { l with mail := { l.mail with plantStops := l.mail.plantStops ++ [.stopAll] } }
          report := s.reported (s.assertReport .stopAll) }
        [statusWord 3 (plantStopWord (s.alert.assertStop .stopAll s.clock)), statusWord 1 0x0201] := by
  unfold State.guardStopAll
  rw [show (s.taking 0xFF840 v).alert.plantStop = none from hp]
  exact State.operation_alert (s := { s.taking 0xFF840 v with alert := s.alert.assertStop .stopAll s.clock }) _ hroom

/-- STOP_ALL from a plant stop of RESET changes the cause (R159). -/
theorem State.guardStopAll_of_reset (hroom : s.room 2) (v : Word) (hp : s.alert.plantStop = some .reset) :
    (s.taking 0xFF840 v).guardStopAll =
      State.postAll
        { s with cycle := .write (fullWrite 0xFF840 v), alert := { s.alert with plantStop := some .stopAll } }
        [statusWord 3 (plantStopWord { s.alert with plantStop := some .stopAll }), statusWord 1 0x0201] := by
  unfold State.guardStopAll
  rw [show (s.taking 0xFF840 v).alert.plantStop = some .reset from hp]
  exact State.operation_alert (s := { s.taking 0xFF840 v with alert := { s.alert with plantStop := some .stopAll } }) _ hroom

/-- STOP_ALL keeps any other cause (R159). -/
theorem State.guardStopAll_of_stopped (hroom : s.room 2) (v : Word)
    (hp : s.alert.plantStop = some .stopAll ∨ s.alert.plantStop = some .ackTimeout) :
    (s.taking 0xFF840 v).guardStopAll =
      State.postAll { s with cycle := .write (fullWrite 0xFF840 v) } [statusWord 1 0x0201] := by
  have hroom1 : (s.taking 0xFF840 v).room 1 := Nat.le_trans (Nat.le_succ _) hroom
  unfold State.guardStopAll
  rcases hp with hp | hp
  · rw [show (s.taking 0xFF840 v).alert.plantStop = some .stopAll from hp]
    exact State.operation_alert _ hroom1
  · rw [show (s.taking 0xFF840 v).alert.plantStop = some .ackTimeout from hp]
    exact State.operation_alert _ hroom1

theorem exec_stopAll (hc : s.cycle = .idle) (hb : s.busy .alert = false) (arg : Byte) :
    exec (.stopAll arg) s = .next (s.taking 0xFF840 (wordOf 2 arg)).guardStopAll :=
  congrArg Host.Outcome.next (State.presentGuard_alert hc hb 0x02 arg (by decide))

/-- ACK_TIMEOUT is taken when the timer has run out (R160). -/
theorem exec_ackTimeout_of_stopped (hb : s.busy .alert = false) (ht : s.alert.ackTimer = .running 0)
    (hp : s.alert.plantStop ≠ none) : exec .ackTimeout s = .next { s with alert := { s.alert with ackTimer := .stopped } } := by
  obtain ⟨c, hc⟩ := Option.ne_none_iff_exists'.mp hp
  simp [exec, execAckTimeout, hb, ht, Timer.due, hc]

theorem exec_ackTimeout_of_released (hb : s.busy .alert = false) (hroom : s.room 1) (ht : s.alert.ackTimer = .running 0)
    (hp : s.alert.plantStop = none) :
    exec .ackTimeout s =
      .next (State.postAll
        { s with
          alert := { s.alert with ackTimer := .stopped, plantStop := some .ackTimeout, assertedAt := s.clock }
          lines := s.lines.map fun l => { l with mail := { l.mail with plantStops := l.mail.plantStops ++ [.ackTimeout] } }
          report := s.reported (s.assertReport .ackTimeout) }
        [statusWord 3 (0xB000 ||| (lowWord s.clock &&& 0x0FFF))]) := by
  have hword : plantStopWord (AlertUnit.assertStop { s.alert with ackTimer := .stopped } .ackTimeout s.clock) =
      0xB000 ||| (lowWord s.clock &&& 0x0FFF) := plantStopWord_of_some (c := .ackTimeout) rfl
  rw [← hword]
  simp only [exec, execAckTimeout, hb, ht, Timer.due, hp, Bool.not_true, Bool.or_false, Bool.false_eq_true, if_false]
  exact congrArg Host.Outcome.next (State.operation_alert (s := { s with alert := _ }) _ hroom)

/-- Settles O16: by what PLANT STOP is when the command or the expiry comes. -/
theorem plantStopIsAssertedByStopAllAndTimeout : Obligations.PlantStopIsAssertedByStopAllAndTimeout := by
  unfold Obligations.PlantStopIsAssertedByStopAllAndTimeout
  refine ⟨State.flowingLines_eq, fun arg s hc hb hroom => ⟨fun hp => ?_, fun hp => ?_, fun hp => ?_⟩,
    fun s hb hroom ht => ⟨exec_ackTimeout_of_stopped hb ht, exec_ackTimeout_of_released hb hroom ht⟩⟩
  · have hword : plantStopWord (s.alert.assertStop .stopAll s.clock) = 0xA000 ||| (lowWord s.clock &&& 0x0FFF) :=
      plantStopWord_of_some (c := .stopAll) rfl
    rw [exec_stopAll hc hb, State.guardStopAll_of_released hroom _ hp, hword]
    rfl
  · have hword : plantStopWord { s.alert with plantStop := some .stopAll } =
        0xA000 ||| (lowWord s.alert.assertedAt &&& 0x0FFF) := plantStopWord_of_some (c := .stopAll) rfl
    rw [exec_stopAll hc hb, State.guardStopAll_of_reset hroom _ hp, hword]
  · rw [exec_stopAll hc hb, State.guardStopAll_of_stopped hroom _ hp]

/-! ### PLANT STOP released (R158, R161, R162) -/

theorem State.tripPending_iff (s : State) : s.tripPending = true ↔ s.alert.pending.getLsbD 0 = true ∨ tripComes s := by
  unfold State.tripPending
  rw [Bool.or_eq_true, State.tripOnItsWay_iff]
  rfl

theorem State.flowingLines_ne_zero_iff (s : State) : s.flowingLines ≠ 0 ↔ ∃ n, (s.line n).state.flowing = true := by
  rw [ne_eq, s.flowingLines_eq_zero_iff]
  simp

theorem exec_releaseStop (hc : s.cycle = .idle) (hb : s.busy .alert = false) (arg : Byte) :
    exec (.releaseStop arg) s = .next (s.taking 0xFF840 (wordOf 3 arg)).guardReleaseStop :=
  congrArg Host.Outcome.next (State.presentGuard_alert hc hb 0x03 arg (by decide))

/-- RELEASE_STOP while released (R161). -/
theorem State.guardReleaseStop_of_released (hroom : s.room 2) (v : Word) (hp : s.alert.plantStop = none) :
    (s.taking 0xFF840 v).guardReleaseStop =
      State.postAll { s with cycle := .write (fullWrite 0xFF840 v) } [statusWord 1 0x0301] := by
  have hroom1 : (s.taking 0xFF840 v).room 1 := Nat.le_trans (Nat.le_succ _) hroom
  unfold State.guardReleaseStop
  rw [show (s.taking 0xFF840 v).alert.plantStop = none from hp]
  exact State.operation_alert _ hroom1

/-- RELEASE_STOP refused (R161). -/
theorem State.guardReleaseStop_of_conditions (hroom : s.room 2) (v : Word) (hp : s.alert.plantStop ≠ none)
    (h : s.config.image = none ∨ s.alert.pending.getLsbD 0 = true ∨ tripComes s ∨ ∃ n, (s.line n).state.flowing = true) :
    (s.taking 0xFF840 v).guardReleaseStop =
      State.postAll { s with cycle := .write (fullWrite 0xFF840 v) } [statusWord 1 0x0304] := by
  have hroom1 : (s.taking 0xFF840 v).room 1 := Nat.le_trans (Nat.le_succ _) hroom
  obtain ⟨c, hc⟩ := Option.ne_none_iff_exists'.mp hp
  have hcond : s.config.image = none ∨ s.tripPending = true ∨ s.flowingLines ≠ 0 := by
    rw [s.tripPending_iff, s.flowingLines_ne_zero_iff, or_assoc]
    exact h
  unfold State.guardReleaseStop
  rw [show (s.taking 0xFF840 v).alert.plantStop = some c from hc]
  exact (if_pos hcond).trans (State.operation_alert _ hroom1)

/-- RELEASE_STOP on its conditions (R161, R162). -/
theorem State.guardReleaseStop_of_free (hroom : s.room 2) (v : Word) {c : PlantCause} (hp : s.alert.plantStop = some c)
    (himage : s.config.image ≠ none) (hclass : s.alert.pending.getLsbD 0 = false) (htrip : ¬ tripComes s)
    (hflow : ∀ n, (s.line n).state.flowing = false) :
    (s.taking 0xFF840 v).guardReleaseStop =
      State.postAll
        { s with
          cycle := .write (fullWrite 0xFF840 v)
          alert := { s.alert with plantStop := none }
          report := s.reported (s.releaseReport c) }
        [statusWord 3 (lowWord s.alert.assertedAt &&& 0x0FFF), statusWord 1 0x0301] := by
  have hcond : ¬ (s.config.image = none ∨ s.tripPending = true ∨ s.flowingLines ≠ 0) := by
    rw [s.tripPending_iff, s.flowingLines_ne_zero_iff]
    rintro (h | (h | h) | ⟨n, h⟩)
    · exact himage h
    · rw [hclass] at h
      cases h
    · exact htrip h
    · rw [hflow n] at h
      cases h
  have hword : plantStopWord { s.alert with plantStop := none } = lowWord s.alert.assertedAt &&& 0x0FFF :=
    plantStopWord_of_none rfl
  unfold State.guardReleaseStop
  rw [show (s.taking 0xFF840 v).alert.plantStop = some c from hp, ← hword]
  exact (if_neg hcond).trans
    (State.operation_alert (s := { s.taking 0xFF840 v with alert := { s.alert with plantStop := none } }) _ hroom)

/-- The posts of ALERT at the notice of a load: one where the new mask changes it (R155). -/
def State.alertPosts (s : State) : List Post :=
  if (s.alert.judged s.config.mask).alert = s.alert.alert then []
  else [statusWord 2 (alertPendingWord (s.alert.judged s.config.mask))]

theorem State.takeLoadNotice_of_other (hroom : s.room 2) (hp : s.alert.plantStop ≠ some .reset) :
    s.takeLoadNotice = State.postAll { s with alert := s.alert.judged s.config.mask } s.alertPosts := by
  unfold State.takeLoadNotice State.alertPosts
  rw [if_neg hp]
  by_cases hlevel : (s.alert.judged s.config.mask).alert = s.alert.alert
  · rw [if_pos hlevel, if_pos hlevel]
    exact State.operation_alert (s := { s with alert := _ }) [] (Nat.le_trans (Nat.le_add_right _ 2) hroom)
  · rw [if_neg hlevel, if_neg hlevel]
    exact State.operation_alert (s := { s with alert := _ }) [_] (Nat.le_trans (Nat.le_succ _) hroom)

theorem State.takeLoadNotice_of_reset (hroom : s.room 2) (hp : s.alert.plantStop = some .reset) :
    s.takeLoadNotice =
      State.postAll
        { s with
          alert := { s.alert.judged s.config.mask with plantStop := none }
          report := s.reported (s.releaseReport .reset) }
        (s.alertPosts ++ [statusWord 3 (lowWord s.alert.assertedAt &&& 0x0FFF)]) := by
  have hword : plantStopWord { s.alert.judged s.config.mask with plantStop := none } = lowWord s.alert.assertedAt &&& 0x0FFF :=
    plantStopWord_of_none rfl
  unfold State.takeLoadNotice State.alertPosts
  rw [if_pos hp, ← hword]
  by_cases hlevel : (s.alert.judged s.config.mask).alert = s.alert.alert
  · rw [if_pos hlevel, if_pos hlevel]
    exact State.operation_alert (s := { s with alert := _ }) [_, _] (Nat.le_trans (Nat.le_succ _) hroom)
  · rw [if_neg hlevel, if_neg hlevel]
    exact State.operation_alert (s := { s with alert := _ }) [_, _, _] hroom

theorem exec_loadNotice {k : Nat} (hb : s.busy .alert = false) (hn : s.alert.loadNotices = k + 1) :
    exec .loadNotice s = .next (State.takeLoadNotice { s with alert := { s.alert with loadNotices := k } }) := by
  simp [exec, execLoadNotice, hb, hn]

/-- Settles O17: a release on its conditions, and a notice by the cause it finds. -/
theorem plantStopIsReleasedByReleaseStopAndLoadNotice : Obligations.PlantStopIsReleasedByReleaseStopAndLoadNotice := by
  unfold Obligations.PlantStopIsReleasedByReleaseStopAndLoadNotice
  refine ⟨rfl, fun arg s hc hb hroom => ⟨fun hp => ?_, fun hp h => ?_, fun c hp himage hclass htrip hflow => ?_⟩,
    fun k s hb hroom hn => ⟨_, _, exec_loadNotice hb hn, rfl, fun hp => ?_, fun hp => ?_⟩⟩
  · rw [exec_releaseStop hc hb, State.guardReleaseStop_of_released hroom _ hp]
  · rw [exec_releaseStop hc hb, State.guardReleaseStop_of_conditions hroom _ hp h]
  · rw [exec_releaseStop hc hb, State.guardReleaseStop_of_free hroom _ hp himage hclass htrip hflow]
    rfl
  · exact State.takeLoadNotice_of_other (s := { s with alert := { s.alert with loadNotices := k } }) hroom hp
  · exact State.takeLoadNotice_of_reset (s := { s with alert := { s.alert with loadNotices := k } }) hroom hp

end Sys2Proof.Machine
end
-- ==== Sys2Proof/Proofs/LineCommands.lean ====
section
/-! PROOFS. The line commands (O18 to O24): each is taken on an idle bus by its free supervisor, and its operation is its
requests and report, and then its posts. -/

namespace Sys2Proof.Machine

variable {s : State}

/-! ### Moves of a line -/

theorem postsOf_dwellPosts (n : LineNo) (st : LineState) :
    postsOf (dwellPosts n st) = if st = .closing then [lineWord n 19 0] else [] := by
  unfold dwellPosts
  split <;> rfl

theorem othersOf_dwellPosts (n : LineNo) (st : LineState) : othersOf (dwellPosts n st) = [] := by
  unfold dwellPosts
  split <;> rfl

/-- A command that moves its line: the move's requests and report, the port, and then the posts and the outcome DONE (R60). -/
theorem State.commandMove_eq (n : LineNo) (code : Byte) (l : Line) (posts acts : List Act)
    (hposts : othersOf posts = []) (hacts : othersOf acts = acts) (hnone : postsOf acts = [])
    (hroom : s.room ((postsOf posts).length + 1))
    (hc : ∀ w v r b, ((acts ++ [Act.ask]).foldl State.perform (s.setLine n l)).cycle ≠ .answered w v r b) :
    s.commandMove n code (l, posts, acts) =
      ((acts ++ [Act.ask]).foldl State.perform (s.setLine n l)).postAll
        (postsOf posts ++ [lineWord n 5 (wordOf code 1)]) := by
  have ho : othersOf (posts ++ [outcomePost n code .done] ++ acts ++ [.ask]) = acts ++ [.ask] := by
    rw [othersOf_append, othersOf_append, othersOf_append, hposts, hacts]
    rfl
  have hp : postsOf (posts ++ [outcomePost n code .done] ++ acts ++ [.ask]) =
      postsOf posts ++ [lineWord n 5 (wordOf code 1)] := by
    rw [postsOf_append, postsOf_append, postsOf_append, hnone, List.append_nil]
    exact List.append_nil _
  have h := State.operation_line_eq (s := s.setLine n l) n (posts ++ [outcomePost n code .done] ++ acts ++ [.ask])
    (by rw [hp, List.length_append]; exact hroom) (by rw [ho]; exact hc)
  rwa [ho, hp] at h

/-- An event that moves its line: the requests and the report, and then the posts. -/
theorem State.takeMove_eq (n : LineNo) (l : Line) (posts acts : List Act)
    (hposts : othersOf posts = []) (hacts : othersOf acts = acts) (hnone : postsOf acts = [])
    (hroom : s.room (postsOf posts).length)
    (hc : ∀ w v r b, (acts.foldl State.perform (s.setLine n l)).cycle ≠ .answered w v r b) :
    s.takeMove n (l, posts, acts) = (acts.foldl State.perform (s.setLine n l)).postAll (postsOf posts) := by
  have ho : othersOf (posts ++ acts) = acts := by rw [othersOf_append, hposts, hacts, List.nil_append]
  have hp : postsOf (posts ++ acts) = postsOf posts := by rw [postsOf_append, hnone, List.append_nil]
  have h := State.operation_line_eq (s := s.setLine n l) n (posts ++ acts) (by rw [hp]; exact hroom) (by rw [ho]; exact hc)
  rwa [ho, hp] at h

/-- Two events that arise one after the other at a controller. -/
theorem State.arrive_arrive (s : State) (n : LineNo) (e f : LinkInput) :
    (s.arrive n e).arrive n f =
      s.setLink n { s.link n with arrivals := (s.link n).arrivals ++ [⟨e, false⟩, ⟨f, false⟩] } := by
  unfold State.arrive
  simp only [State.link_setLink_same, List.append_assoc]
  unfold State.setLink
  simp only [Vector.set_set]
  rfl

/-- A line command is taken on an idle bus by its free supervisor. -/
theorem exec_control (hc : s.cycle = .idle) (n : LineNo) (code arg : Byte) (hb : s.busy (.line n) = false)
    (hcode : code ≠ 0x06) :
    Host.Outcome.next (s.presentControl n code arg) =
      (Host.Outcome.next ((s.taking (lineAddr n 0) (wordOf code arg)).lineControl n code arg) :
        Host.Outcome State Fault Refusal) :=
  congrArg _ (s.presentControl_of_idle hc n code arg hb (s.releaseWaits_of_code n hcode))

/-! ### BIND (R62, R63) -/

theorem State.bindTest_eq_none {n : LineNo} {arg : Byte} {st : StageNo} (hstate : (s.line n).state = .vacant)
    (hen : s.config.enabled n = true) (hload : s.config.load ≠ .loading) (htable : s.tableBase ≠ none)
    (hst : Fin.ofNat 64 arg.toNat = st) (hlt : arg.toNat < 64) (hfree : s.bindingOf st = none) : s.bindTest n arg = none := by
  unfold State.bindTest
  rw [if_neg (not_not.mpr hstate), hen, if_neg (by decide), if_neg hload, if_neg htable, if_neg (Nat.not_le.mpr hlt), hst,
    if_neg (not_not.mpr hfree)]

/-- Settles O18. -/
theorem bindClaimsItsStage : Obligations.BindClaimsItsStage := by
  unfold Obligations.BindClaimsItsStage
  intro n arg st s hc hb hroom hstate hen hload htable harg hfree
  have hlt : arg.toNat < 64 := harg ▸ st.isLt
  have hst : Fin.ofNat 64 arg.toNat = st := Fin.ext (by rw [harg]; exact Nat.mod_eq_of_lt st.isLt)
  have hbyte : stageByte (some st) = arg := by
    rw [stageByte, ← harg]
    exact BitVec.ofNat_toNat 8 arg
  have hword : stateWord ((s.line n).enterBinding st) = wordOf arg (if (s.line n).riseFlag then 0x81 else 0x01) := by
    change wordOf (stageByte (some st)) ((if (s.line n).riseFlag then 0x80 else 0) ||| 1) = _
    rw [hbyte]
    cases (s.line n).riseFlag <;> rfl
  have htest := State.bindTest_eq_none hstate hen hload htable hst hlt hfree
  refine (exec_control hc n 0x01 arg hb (by decide)).trans (congrArg _ ?_)
  change State.lineBind _ n arg = _
  unfold State.lineBind
  rw [show (s.taking (lineAddr n 0) (wordOf 0x01 arg)).bindTest n arg = none from htest, hst, ← hword]
  exact State.operation_line n _ hroom nofun

/-! ### START and RESUME (R64, R66, R53, R54) -/

theorem Line.leaveIdle_of_idleBound {l : Line} (h : l.state.idleBound = true) :
    l.leaveIdle = { l with settle := .stopped, baseline := none, riseFlag := false, holdReason := none } :=
  if_pos h

/-- A line BOUND or HOLDING after its entry to INJECTING (R53, R54). -/
def injectingLine (l : Line) : Line :=
  { l with
    state := .injecting, admitted := 0, window := [],
    ramp := if l.flowTarget = 0 then .stopped else .running 1000,
    settle := .stopped, baseline := none, riseFlag := false, holdReason := none }

theorem Line.enterInjecting_of_idleBound {l : Line} (h : l.state.idleBound = true) :
    l.enterInjecting = injectingLine l := by
  rw [Line.enterInjecting, Line.leaveIdle_of_idleBound h]
  rfl

/-- STATE of a line whose rise flag is clear (R58). -/
theorem stateWord_of_rise_clear {l : Line} {code : Byte} (hrise : l.riseFlag = false) (hcode : lowByte l.state.code = code) :
    stateWord l = wordOf (stageByte l.stage) code := by
  unfold stateWord
  rw [hrise, hcode]
  exact congrArg (wordOf _) BitVec.zero_or

/-- STATE of a vacant line: no stage. -/
theorem stateWord_enterVacant (l : Line) (r : LeaveReason) : stateWord (l.enterVacant r) = 0xFF00 :=
  (stateWord_of_rise_clear (code := 0) rfl rfl).trans (show wordOf (stageByte none) 0 = 0xFF00 by decide)

/-- The line words of an entry to INJECTING (R54, R58, R59). -/
def injectingWords (n : LineNo) (st : Option StageNo) : List Post :=
  [lineWord n 15 0, lineWord n 4 (wordOf (stageByte st) 3), lineWord n 6 0]

/-- A command that injects: the entry with its requests, and the posts. -/
theorem State.commandMove_inject (n : LineNo) (code : Byte) (v : Word) (acts : List Act)
    (hstate : (s.line n).state.idleBound = true) (hacts : othersOf acts = acts) (hnone : postsOf acts = [])
    (hroom : s.room 4)
    (hc : ∀ w u r b, ((acts ++ [Act.ask]).foldl State.perform
      ((s.taking (lineAddr n 0) v).setLine n (injectingLine (s.line n)))).cycle ≠ .answered w u r b) :
    (s.taking (lineAddr n 0) v).commandMove n code
        ((s.line n).enterInjecting,
          postLine n 15 (s.line n).enterInjecting.admitted :: statePosts n (s.line n).enterInjecting, acts) =
      ((acts ++ [Act.ask]).foldl State.perform
          ((s.taking (lineAddr n 0) v).setLine n (injectingLine (s.line n)))).postAll
        (injectingWords n (s.line n).stage ++ [lineWord n 5 (wordOf code 1)]) := by
  have hwords : injectingWords n (s.line n).stage =
      postsOf (postLine n 15 (injectingLine (s.line n)).admitted :: statePosts n (injectingLine (s.line n))) := by
    have hstate : stateWord (injectingLine (s.line n)) = wordOf (stageByte (s.line n).stage) 3 :=
      stateWord_of_rise_clear rfl rfl
    unfold injectingWords
    rw [← hstate]
    rfl
  rw [Line.enterInjecting_of_idleBound hstate, hwords]
  exact State.commandMove_eq (s := s.taking (lineAddr n 0) v) n code (injectingLine (s.line n)) _ acts rfl hacts hnone hroom hc

/-- Settles O19. -/
theorem startEntersInjecting : Obligations.StartEntersInjecting := by
  unfold Obligations.StartEntersInjecting
  intro n arg s hc hb hroom hstate hlink hstop hflag
  have htest : s.startTest n .bound = none := (s.startTest_eq_none_iff n .bound).mpr ⟨hstate, hlink, hstop, hflag⟩
  refine ⟨_, rfl, (exec_control hc n 0x02 arg hb (by decide)).trans (congrArg _ ?_)⟩
  change State.lineStart _ n = _
  unfold State.lineStart
  rw [show (s.taking (lineAddr n 0) (wordOf 0x02 arg)).startTest n .bound = none from htest]
  refine (State.commandMove_inject n 0x02 _ [.request n .mix, .request n .setpoint] (by rw [hstate]; rfl) rfl rfl hroom nofun).trans ?_
  simp only [List.cons_append, List.nil_append, List.foldl_cons, List.foldl_nil]
  change State.postAll (State.perform (State.arrive (State.arrive _ n _) n _) .ask) _ = _
  rw [State.arrive_arrive]
  rfl

/-! ### Entries to HOLDING and ENDED (R55, R56, R65, R67) -/

/-- The line words of a move out of INJECTING, CLOSING, BOUND or HOLDING: the flow, the dwell of a line that was CLOSING,
STATE and REASON (R58, R59, R104). -/
def leavingWords (n : LineNo) (before : LineState) (state reason : Word) : List Post :=
  [lineWord n 15 0] ++ (if before = .closing then [lineWord n 19 0] else []) ++ [lineWord n 4 state, lineWord n 6 reason]

/-- How many they are. -/
def leavingCount (before : LineState) : Nat := if before = .closing then 4 else 3

theorem leavingCount_le (before : LineState) : leavingCount before ≤ 4 := by cases before <;> decide

theorem length_leavingWords (n : LineNo) (before : LineState) (state reason : Word) :
    (leavingWords n before state reason).length = leavingCount before := by
  unfold leavingWords leavingCount
  split <;> rfl

theorem postsOf_leaving (n : LineNo) (before : LineState) (l : Line) :
    postsOf ([postLine n 15 0] ++ dwellPosts n before ++ statePosts n l) =
      leavingWords n before (stateWord l) (reasonWord l) := by
  rw [postsOf_append, postsOf_append, postsOf_dwellPosts]
  rfl

theorem othersOf_leaving (n : LineNo) (before : LineState) (l : Line) :
    othersOf ([postLine n 15 0] ++ dwellPosts n before ++ statePosts n l) = [] := by
  rw [othersOf_append, othersOf_append, othersOf_dwellPosts]
  rfl

theorem Line.enterEnded_eq (l : Line) (r : EndReason) : l.enterEnded r = endedLine l r := by
  unfold Line.enterEnded Line.leaveIdle endedLine
  by_cases h : l.state.idleBound = true
  · simp only [if_pos h]
  · simp only [if_neg h]

/-- A move to ENDED, in the statements' form. -/
theorem endMove_eq (n : LineNo) (l : Line) (r : EndReason) (now : Long) :
    endMove n l r now =
      (endedLine l r, [postLine n 15 0] ++ dwellPosts n l.state ++ statePosts n (endedLine l r),
        [.stop n, .hand (endedReport n l r now)]) := by
  unfold endMove
  rw [Line.enterEnded_eq]
  rfl

/-- A command that ends its line (R56, R66, R67). -/
theorem State.commandMove_end (n : LineNo) (code : Byte) (v : Word) (r : EndReason) (now : Long) (hnow : now = s.clock)
    (hroom : s.room (leavingCount (s.line n).state + 1)) :
    (s.taking (lineAddr n 0) v).commandMove n code (endMove n (s.line n) r now) =
      State.postAll { endedState s n r with cycle := .write (fullWrite (lineAddr n 0) v) }
        (leavingWords n (s.line n).state (stateWord (endedLine (s.line n) r)) (wordOf 0 r.code) ++
          [lineWord n 5 (wordOf code 1)]) := by
  subst hnow
  rw [endMove_eq]
  refine (State.commandMove_eq (s := s.taking (lineAddr n 0) v) n code _ _ _ (othersOf_leaving n _ _) (by rfl) (by rfl) ?_
    (by nofun)).trans ?_
  · rw [postsOf_leaving, length_leavingWords]
    exact hroom
  · rw [postsOf_leaving]
    rfl

theorem Line.admits_state {l : Line} : l.state.admits = true ↔
    l.state = .bound ∨ l.state = .injecting ∨ l.state = .closing ∨ l.state = .holding := by
  cases l.state <;> simp [LineState.admits, LineState.flowing, LineState.idleBound]

/-- Settles O20: both by their moves. -/
theorem holdAndEndStopAFlowingLine : Obligations.HoldAndEndStopAFlowingLine := by
  unfold Obligations.HoldAndEndStopAFlowingLine
  refine ⟨fun n arg s hc hb hroom hstate => ⟨_, rfl, ?_⟩, fun n arg s hc hb hroom hstate => ?_⟩
  · refine (exec_control hc n 0x03 arg hb (by decide)).trans (congrArg _ ?_)
    change State.lineHold _ n = _
    unfold State.lineHold
    have hflow : ((s.taking (lineAddr n 0) (wordOf 0x03 arg)).line n).state.flowing = true :=
      (LineState.flowing_iff _).mpr hstate
    rw [if_pos hflow]
    have hword : stateWord ((s.line n).enterHolding .host) = wordOf (stageByte (s.line n).stage) 5 :=
      stateWord_of_rise_clear rfl rfl
    refine (State.commandMove_eq (s := s.taking (lineAddr n 0) (wordOf 0x03 arg)) n 0x03 ((s.line n).enterHolding .host) _ _
      (othersOf_leaving n (s.line n).state ((s.line n).enterHolding .host)) (by rfl) (by rfl) ?_ (by nofun)).trans ?_
    · rw [postsOf_leaving, length_leavingWords]
      exact Nat.le_trans (Nat.add_le_add_left (Nat.succ_le_succ (leavingCount_le _)) _) hroom
    · rw [postsOf_leaving, hword]
      unfold leavingWords
      rw [List.append_assoc]
      rfl
  · refine (exec_control hc n 0x05 arg hb (by decide)).trans (congrArg _ ?_)
    change State.lineEnd _ n = _
    unfold State.lineEnd
    have hadm : (s.line n).state.admits = true := Line.admits_state.mpr hstate
    refine (if_pos hadm).trans ?_
    refine (State.commandMove_end n 0x05 _ .hostEnd s.clock rfl ?_).trans ?_
    · exact Nat.le_trans (Nat.add_le_add_left (Nat.succ_le_succ (leavingCount_le _)) _) hroom
    · unfold leavingWords
      rw [List.append_assoc]
      rfl

/-- Settles O21: the limits before the line injects again. -/
theorem resumeInjectsOrEnds : Obligations.ResumeInjectsOrEnds := by
  unfold Obligations.ResumeInjectsOrEnds
  intro n arg s hc hb hroom hstate hlink hstop hflag
  have htest : s.startTest n .holding = none := (s.startTest_eq_none_iff n .holding).mpr ⟨hstate, hlink, hstop, hflag⟩
  have hresume : exec (.resume n arg) s = .next ((s.taking (lineAddr n 0) (wordOf 0x04 arg)).lineResume n) :=
    exec_control hc n 0x04 arg hb (by decide)
  have hne : (s.line n).state ≠ .closing := by rw [hstate]; nofun
  have hend (r : EndReason) : (s.taking (lineAddr n 0) (wordOf 0x04 arg)).commandMove n 0x04 (endMove n (s.line n) r s.clock) =
      State.postAll { endedState s n r with cycle := .write (fullWrite (lineAddr n 0) (wordOf 4 arg)) }
        [lineWord n 15 0, lineWord n 4 (stateWord (endedLine (s.line n) r)), lineWord n 6 (wordOf 0 r.code),
          lineWord n 5 0x0401] := by
    refine (State.commandMove_end n 0x04 _ r s.clock rfl ?_).trans ?_
    · rw [hstate]
      exact hroom
    · unfold leavingWords
      rw [if_neg hne]
      rfl
  unfold State.lineResume at hresume
  rw [show (s.taking (lineAddr n 0) (wordOf 0x04 arg)).startTest n .holding = none from htest] at hresume
  refine ⟨fun r hr => ?_, fun hcap hint => ?_⟩
  · rw [hresume, ← hend r]
    rcases hr with ⟨hcap, rfl⟩ | ⟨hcap, hint, rfl⟩
    · exact congrArg _ (if_pos hcap)
    · exact congrArg _ ((if_neg (BitVec.not_le.mpr hcap)).trans (if_pos hint))
  · rw [hresume]
    refine congrArg _ ((if_neg (BitVec.not_le.mpr hcap)).trans ((if_neg (BitVec.not_lt.mpr hint)).trans ?_))
    exact State.commandMove_inject n 0x04 _ [.request n .setpoint] (by rw [hstate]; rfl) rfl rfl hroom nofun

/-! ### RELEASE (R68, R33, R47, R57) -/

/-- What RELEASE does to the port grant and the reader's list: the statement's three cases are those of R33 and log 5. -/
theorem State.releaseJobs {n : LineNo} {mine : Job → Bool} {port : PortGrant} {jobs : List Job}
    (hcopy : ∀ m st tag k, mine (.bindCopy m st tag k) = (m == n)) (hload : ∀ k, mine (.load k) = false)
    (h : (s.line n).state ≠ .binding ∧ port = s.port ∧ jobs = s.jobs ∨
      (s.line n).state = .binding ∧ (s.port = .free ∨ ∀ j ∈ s.jobs.head?, mine j = false) ∧ port = s.port ∧
        jobs = s.jobs.filter (fun j => !mine j) ∨
      (s.line n).state = .binding ∧ ∃ v gone j rest, s.port = .reading v gone ∧ s.jobs = j :: rest ∧
        mine j = true ∧ port = .reading v true ∧ jobs = j :: rest.filter (fun j => !mine j)) :
    (if (s.line n).state = .binding then s.withdraw n else s) = { s with port := port, jobs := jobs } := by
  have hmine : mine = Job.copies n := by
    funext j
    cases j with
    | bindCopy m st tag k => exact hcopy m st tag k
    | load k => exact hload k
  subst hmine
  rcases h with ⟨hst, rfl, rfl⟩ | ⟨hst, hfree, rfl, rfl⟩ | ⟨hst, v, gone, j, rest, hp, hj, hn, rfl, rfl⟩
  · rw [if_neg hst]
  · rw [if_pos hst]
    rcases hfree with hp | hhead
    · exact s.withdraw_free n hp
    · unfold State.withdraw
      split
      · next hj =>
        rw [if_neg (by rw [hhead _ (by rw [hj]; rfl)]; decide)]
        rfl
      · rfl
  · rw [if_pos hst]
    exact s.withdraw_reading n v gone j rest hp hj hn

/-- A RELEASE waits exactly while the STOP of an ended or tripped line is untaken (log 38). -/
theorem State.releaseWaits_iff (n : LineNo) :
    s.releaseWaits n 0x06 = true ↔
      ((s.line n).state = .ended ∨ (s.line n).state = .tripped) ∧ ∃ a ∈ (s.link n).arrivals, a.input = .stop := by
  simp [State.releaseWaits]

/-- Settles O22. -/
theorem releaseReturnsTheLineToVacant : Obligations.ReleaseReturnsTheLineToVacant := by
  unfold Obligations.ReleaseReturnsTheLineToVacant
  refine fun n arg s hc hb => ⟨fun st ph mine port jobs hroom hstate hstage hbind hcopy hload hjobs => ?_, fun hstate hstop => ?_⟩
  · have hwaits : s.releaseWaits n 0x06 = false := by
      rw [← Bool.not_eq_true, State.releaseWaits_iff]
      rintro ⟨hended, a, ha, hin⟩
      rcases hstate with h | h | ⟨-, h⟩
      · rw [h] at hended
        rcases hended with h | h <;> cases h
      · rw [h] at hended
        rcases hended with h | h <;> cases h
      · exact h a ha hin
    have hrel : (s.line n).state.releasable = true := by
      rcases hstate with h | h | ⟨h | h, -⟩ <;> rw [h] <;> rfl
    refine congrArg Host.Outcome.next ((s.presentControl_of_idle hc n 0x06 arg hb hwaits).trans ?_)
    change State.lineRelease _ n = _
    have hj := State.releaseJobs (s := s.taking (lineAddr n 0) (wordOf 0x06 arg)) hcopy hload hjobs
    unfold State.lineRelease
    refine (if_pos hrel).trans ?_
    rw [hj, show ((s.taking (lineAddr n 0) (wordOf 0x06 arg)).line n).stage = some st from hstage]
    have hclear : State.clearBinding { s.taking (lineAddr n 0) (wordOf 0x06 arg) with port := port, jobs := jobs } n (some st) =
        State.setBinding { s.taking (lineAddr n 0) (wordOf 0x06 arg) with port := port, jobs := jobs } st none := by
      have hb' : State.bindingOf { s.taking (lineAddr n 0) (wordOf 0x06 arg) with port := port, jobs := jobs } st =
          some ⟨n, ph⟩ := hbind
      simp only [State.clearBinding, hb', if_true]
    rw [hclear]
    refine (State.commandMove_eq
      (s := State.setBinding { s.taking (lineAddr n 0) (wordOf 0x06 arg) with port := port, jobs := jobs } st none)
      n 0x06 ((s.line n).enterVacant .clear)
      (statePosts n ((s.line n).enterVacant .clear)) [] rfl rfl rfl hroom nofun).trans ?_
    have hword : stateWord ((s.line n).enterVacant .clear) = 0xFF00 := stateWord_enterVacant _ _
    have hreason : reasonWord ((s.line n).enterVacant .clear) = 0 :=
      show wordOf 0 LeaveReason.clear.code = 0 by decide
    have hdone : wordOf 6 1 = 0x0601 := by decide
    have hposts : postsOf (statePosts n ((s.line n).enterVacant .clear)) ++ [lineWord n 5 (wordOf 6 1)] =
        [lineWord n 4 0xFF00, lineWord n 6 0, lineWord n 5 0x0601] := by
      unfold statePosts
      rw [hword, hreason, hdone]
      rfl
    rw [hposts]
    rfl
  · have hwaits : s.releaseWaits n 0x06 = true := State.releaseWaits_iff n |>.mpr ⟨hstate, hstop⟩
    change Host.Outcome.next (State.presentControl _ _ _ _) = _
    unfold State.presentControl
    rw [hwaits, Bool.or_true, State.present_waits _ _ _ hc]

/-! ### RESYNC and REARM_FLAGS (R69, R70) -/

/-- Settles O23. -/
theorem resyncAndRearmAskTheController : Obligations.ResyncAndRearmAskTheController := by
  unfold Obligations.ResyncAndRearmAskTheController
  intro n arg s hc hb hroom
  have hresync : exec (.resync n arg) s = .next ((s.taking (lineAddr n 0) (wordOf 0x07 arg)).lineResync n) :=
    exec_control hc n 0x07 arg hb (by decide)
  have hrearm : exec (.rearmFlags n arg) s = .next ((s.taking (lineAddr n 0) (wordOf 0x08 arg)).lineRearm n) :=
    exec_control hc n 0x08 arg hb (by decide)
  rw [hresync, hrearm]
  unfold State.lineResync State.lineRearm
  refine ⟨fun hen => ⟨congrArg _ ((if_pos hen).trans ?_), congrArg _ ((if_pos hen).trans ?_)⟩, fun hen => ?_⟩
  · exact State.operation_line (s := s.taking (lineAddr n 0) (wordOf 0x07 arg)) n _ hroom nofun
  · exact State.operation_line (s := s.taking (lineAddr n 0) (wordOf 0x08 arg)) n _ hroom nofun
  · have hdis : ¬ s.config.enabled n = true := by rw [hen]; decide
    exact ⟨congrArg _ ((if_neg hdis).trans (State.decline_of_taking hroom n 0x07 arg .lineDisabled)),
      congrArg _ ((if_neg hdis).trans (State.decline_of_taking hroom n 0x08 arg .lineDisabled))⟩

/-! ### Declined commands (R61, R62, R64 to R68) -/

/-- The tests of BIND give the statement's outcomes. -/
theorem declined_bind (n m : LineNo) (arg : Byte) :
    declined s n (.bind m arg) = if m ≠ n then none else (s.bindTest n arg).map fun o => (0x01, arg, o.code) := by
  simp only [declined, State.bindTest, apply_ite (Option.map _), Option.map_some, Option.map_none, Bool.not_eq_true']
  rfl

theorem declined_start (n m : LineNo) (arg : Byte) :
    declined s n (.start m arg) = if m ≠ n then none else (s.startTest n .bound).map fun o => (0x02, arg, o.code) := by
  simp only [declined, State.startTest, apply_ite (Option.map _), Option.map_some, Option.map_none]
  rfl

theorem declined_resume (n m : LineNo) (arg : Byte) :
    declined s n (.resume m arg) = if m ≠ n then none else (s.startTest n .holding).map fun o => (0x04, arg, o.code) := by
  simp only [declined, State.startTest, apply_ite (Option.map _), Option.map_some, Option.map_none]
  rfl

theorem declined_hold (n m : LineNo) (arg : Byte) :
    declined s n (.hold m arg) =
      if m ≠ n then none else if (s.line n).state.flowing = true then none else some (0x03, arg, 3) := by
  simp only [declined]
  cases (s.line n).state <;> rfl

theorem declined_endStage (n m : LineNo) (arg : Byte) :
    declined s n (.endStage m arg) =
      if m ≠ n then none else if (s.line n).state.admits = true then none else some (0x05, arg, 3) := by
  simp only [declined]
  cases (s.line n).state <;> rfl

theorem declined_release (n m : LineNo) (arg : Byte) :
    declined s n (.release m arg) =
      if m ≠ n then none else if (s.line n).state.releasable = true then none else some (0x06, arg, 3) := by
  simp only [declined]
  cases (s.line n).state <;> rfl

/-- A command whose test fails is declined with the outcome of the test. -/
structure Declines (s : State) (n : LineNo) (c : Instr) (code arg o : Byte) : Prop where
  present : exec c s = .next (s.presentControl n code arg)
  waits : s.releaseWaits n code = false
  decline : ∃ out : LineOutcome, out.code = o ∧
    (s.taking (lineAddr n 0) (wordOf code arg)).lineControl n code arg =
      (s.taking (lineAddr n 0) (wordOf code arg)).decline n code out

theorem Declines.exec {n : LineNo} {c : Instr} {code arg o : Byte} (h : Declines s n c code arg o) (hc : s.cycle = .idle)
    (hb : s.busy (.line n) = false) (hroom : s.room 1) :
    Machine.exec c s =
      .next (State.postAll { s with cycle := .write (fullWrite (lineAddr n 0) (wordOf code arg)) }
        [lineWord n 5 (wordOf code o)]) := by
  obtain ⟨hpresent, hwaits, out, rfl, hdecline⟩ := h
  rw [hpresent, s.presentControl_of_idle hc n code arg hb hwaits, hdecline, State.decline_of_taking hroom]

theorem declines_of_declined {n : LineNo} {c : Instr} {code arg o : Byte} (h : declined s n c = some (code, arg, o)) :
    Declines s n c code arg o := by
  cases c with
  | bind m a =>
    rw [declined_bind] at h
    split at h
    · cases h
    next hm =>
    obtain ⟨out, htest, heq⟩ := Option.map_eq_some_iff.mp h
    cases heq
    obtain rfl := not_not.mp hm
    refine ⟨rfl, s.releaseWaits_of_code m (by decide), out, rfl, ?_⟩
    change State.lineBind _ m _ = _
    unfold State.lineBind
    rw [show (s.taking (lineAddr m 0) (wordOf 0x01 _)).bindTest m _ = some out from htest]
  | start m a =>
    rw [declined_start] at h
    split at h
    · cases h
    next hm =>
    obtain ⟨out, htest, heq⟩ := Option.map_eq_some_iff.mp h
    cases heq
    obtain rfl := not_not.mp hm
    refine ⟨rfl, s.releaseWaits_of_code m (by decide), out, rfl, ?_⟩
    change State.lineStart _ m = _
    unfold State.lineStart
    rw [show (s.taking (lineAddr m 0) (wordOf 0x02 _)).startTest m .bound = some out from htest]
  | resume m a =>
    rw [declined_resume] at h
    split at h
    · cases h
    next hm =>
    obtain ⟨out, htest, heq⟩ := Option.map_eq_some_iff.mp h
    cases heq
    obtain rfl := not_not.mp hm
    refine ⟨rfl, s.releaseWaits_of_code m (by decide), out, rfl, ?_⟩
    change State.lineResume _ m = _
    unfold State.lineResume
    rw [show (s.taking (lineAddr m 0) (wordOf 0x04 _)).startTest m .holding = some out from htest]
  | hold m a =>
    rw [declined_hold] at h
    split at h
    · cases h
    next hm =>
    split at h
    · cases h
    next hstate =>
    cases h
    obtain rfl := not_not.mp hm
    exact ⟨rfl, s.releaseWaits_of_code m (by decide), .refusedState, rfl, if_neg hstate⟩
  | endStage m a =>
    rw [declined_endStage] at h
    split at h
    · cases h
    next hm =>
    split at h
    · cases h
    next hstate =>
    cases h
    obtain rfl := not_not.mp hm
    exact ⟨rfl, s.releaseWaits_of_code m (by decide), .refusedState, rfl, if_neg hstate⟩
  | release m a =>
    rw [declined_release] at h
    split at h
    · cases h
    next hm =>
    split at h
    · cases h
    next hstate =>
    cases h
    obtain rfl := not_not.mp hm
    refine ⟨rfl, ?_, .refusedState, rfl, if_neg hstate⟩
    rw [← Bool.not_eq_true, State.releaseWaits_iff]
    rintro ⟨hended | htripped, -⟩
    · exact hstate (by rw [hended]; rfl)
    · exact hstate (by rw [htripped]; rfl)
  | _ => cases h

/-- Settles O24. -/
theorem aDeclinedLineCommandOnlyPostsItsOutcome : Obligations.ADeclinedLineCommandOnlyPostsItsOutcome := by
  unfold Obligations.ADeclinedLineCommandOnlyPostsItsOutcome
  intro n c code arg o s hc hb hroom h
  exact (declines_of_declined h).exec hc hb hroom

end Sys2Proof.Machine
end
-- ==== Sys2Proof/Proofs/Setpoints.lean ====
section
/-! PROOFS. The setpoint writes and the consumer index (O25 to O28). -/

namespace Sys2Proof.Machine

variable {s : State}

/-- A setpoint is taken on an idle bus by its free supervisor. -/
theorem exec_setpoint (hc : s.cycle = .idle) (n : LineNo) (word : Nat) (v : Word) (hb : s.busy (.line n) = false) :
    Host.Outcome.next (s.presentSetpoint n word v) =
      (Host.Outcome.next ((s.taking (lineAddr n word) v).lineSetpoint n word v) : Host.Outcome State Fault Refusal) :=
  congrArg _ (s.presentSetpoint_of_idle hc n word v hb)

theorem exec_flowTarget_of_idle (hc : s.cycle = .idle) (n : LineNo) (v : Word) (hb : s.busy (.line n) = false) :
    exec (.flowTarget n v) s = .next ((s.taking (lineAddr n 1) v).lineFlowTarget n v) :=
  exec_setpoint hc n 1 v hb

theorem exec_ceilingRequest_of_idle (hc : s.cycle = .idle) (n : LineNo) (v : Word) (hb : s.busy (.line n) = false) :
    exec (.ceilingRequest n v) s = .next ((s.taking (lineAddr n 2) v).lineCeilingRequest n v) :=
  exec_setpoint hc n 2 v hb

theorem exec_mixRequest_of_idle (hc : s.cycle = .idle) (n : LineNo) (v : Word) (hb : s.busy (.line n) = false) :
    exec (.mixRequest n v) s = .next ((s.taking (lineAddr n 3) v).lineMixRequest n v) :=
  exec_setpoint hc n 3 v hb

/-- A setpoint that is taken without a post: the line, and the port asked for the answer's value (R76). -/
theorem State.operation_answer (n : LineNo) (a : Addr) (v value : Word) (l l' : Line) :
    ((s.taking a v).setLine n l).operation (.line n) [answerOf l' value none] =
      { s with cycle := .write (fullWrite a value), lines := s.lines.set n l } :=
  State.operation_line_noPosts (s := (s.taking a v).setLine n l) n [answerOf l' value none] (by simp [Act.isPost, answerOf])
    nofun

theorem LineState.flowing_of_idleBound {st : LineState} (h : st = .bound ∨ st = .holding) : st.flowing = false := by
  rcases h with rfl | rfl <;> rfl

/-! ### FLOW_TARGET (R77) -/

theorem Line.setFlowTarget_of_not_flowing {l : Line} (h : l.state.flowing = false) (t : Word) :
    l.setFlowTarget t = { l with flowTarget := t } := by
  unfold Line.setFlowTarget
  exact if_neg (by rw [h]; decide)

theorem Line.setFlowTarget_of_lower {l : Line} {t : Word} (h : l.state.flowing = true) (ht : t < l.admitted) :
    l.setFlowTarget t = { l with flowTarget := t, admitted := t, ramp := .stopped } := by
  unfold Line.setFlowTarget
  exact (if_pos h).trans (if_pos ht)

theorem Line.setFlowTarget_of_not_lower {l : Line} {t : Word} (h : l.state.flowing = true) (ht : l.admitted ≤ t) :
    l.setFlowTarget t =
      { l with
        flowTarget := t
        ramp := if t = l.admitted then .stopped else if l.ramp = .stopped then .running 1000 else l.ramp } := by
  unfold Line.setFlowTarget
  refine (if_pos h).trans ((if_neg (BitVec.not_lt.mpr ht)).trans ?_)
  by_cases heq : t = l.admitted
  · rw [if_pos heq, if_pos heq]
  · rw [if_neg heq, if_neg heq]
    rfl

/-- The supervisor's operation at an admitted FLOW_TARGET. -/
theorem exec_flowTarget (hc : s.cycle = .idle) (n : LineNo) (v : Word) (hb : s.busy (.line n) = false)
    (hadm : (s.line n).state.admits = true) {t : Word} (ht : t = minWord v ((s.line n).stageWord 8)) :
    exec (.flowTarget n v) s =
      .next (((s.taking (lineAddr n 1) v).setLine n ((s.line n).setFlowTarget t)).operation (.line n)
        ((if (s.line n).state.flowing && t < (s.line n).admitted
            then [postLine n 15 ((s.line n).setFlowTarget t).admitted, .request n .setpoint] else []) ++
          [answerOf ((s.line n).setFlowTarget t) t none])) := by
  subst ht
  exact (exec_setpoint hc n 1 v hb).trans (congrArg _ (if_pos hadm))

theorem flowTarget_taken (n : LineNo) (v t : Word) (hc : s.cycle = .idle) (hb : s.busy (.line n) = false) (hroom : s.room 1)
    (ht : t = (if v ≤ (s.line n).stageWord 8 then v else (s.line n).stageWord 8)) :
    ((s.line n).state = .bound ∨ (s.line n).state = .holding →
       exec (.flowTarget n v) s =
         .next { s with
           cycle := .write (fullWrite (lineAddr n 1) t)
           lines := s.lines.set n { s.line n with flowTarget := t } }) ∧
     ((s.line n).state = .injecting ∨ (s.line n).state = .closing →
       (t < (s.line n).admitted →
         exec (.flowTarget n v) s =
           .next (State.postAll
             { s with
               cycle := .write (fullWrite (lineAddr n 1) t)
               lines := s.lines.set n { s.line n with flowTarget := t, admitted := t, ramp := .stopped }
               links := s.links.set n
                 { s.link n with arrivals := (s.link n).arrivals ++ [⟨.request .setpoint, false⟩] } }
             [lineWord n 15 t])) ∧
       ((s.line n).admitted ≤ t →
         exec (.flowTarget n v) s =
           .next { s with
             cycle := .write (fullWrite (lineAddr n 1) t)
             lines := s.lines.set n
               { s.line n with
                 flowTarget := t
                 ramp := if t = (s.line n).admitted then .stopped
                   else if (s.line n).ramp = .stopped then .running 1000 else (s.line n).ramp } })) := by
  refine ⟨fun hstate => ?_, fun hstate => ⟨fun hlt => ?_, fun hle => ?_⟩⟩
  · have hflow := LineState.flowing_of_idleBound hstate
    have hadm : (s.line n).state.admits = true := by rcases hstate with h | h <;> rw [h] <;> rfl
    rw [exec_flowTarget hc n v hb hadm ht, Line.setFlowTarget_of_not_flowing hflow, hflow, Bool.false_and,
      if_neg Bool.false_ne_true]
    exact congrArg _ (State.operation_answer ..)
  · have hflow : (s.line n).state.flowing = true := (LineState.flowing_iff _).mpr hstate
    have hadm : (s.line n).state.admits = true := by rcases hstate with h | h <;> rw [h] <;> rfl
    rw [exec_flowTarget hc n v hb hadm ht, Line.setFlowTarget_of_lower hflow hlt, if_pos (by simp [hflow, hlt])]
    exact congrArg _ (State.operation_line_eq n
      [postLine n 15 t, .request n .setpoint, answerOf { s.line n with flowTarget := t, admitted := t, ramp := .stopped } t none]
      hroom nofun)
  · have hflow : (s.line n).state.flowing = true := (LineState.flowing_iff _).mpr hstate
    have hadm : (s.line n).state.admits = true := by rcases hstate with h | h <;> rw [h] <;> rfl
    have hnot : ¬ ((s.line n).state.flowing && t < (s.line n).admitted) = true := by
      rw [Bool.and_eq_true, decide_eq_true_eq]
      exact fun h => BitVec.not_lt.mpr hle h.2
    rw [exec_flowTarget hc n v hb hadm ht, Line.setFlowTarget_of_not_lower hflow hle, if_neg hnot]
    exact congrArg _ (State.operation_answer ..)

/-! ### CEILING_REQUEST (R82) -/

theorem ceilingRequest_taken (n : LineNo) (v r e : Word) (hc : s.cycle = .idle) (hb : s.busy (.line n) = false) (hroom : s.room 1)
    (hadm : (s.line n).state.admits = true)
    (hr : r = (if v ≤ (s.line n).stageWord 3 then v else (s.line n).stageWord 3))
    (he : e = (if r ≤ (s.line n).intensityCeiling then r else (s.line n).intensityCeiling)) :
    exec (.ceilingRequest n v) s =
       .next (State.postAll
         { s with
           cycle := .write (fullWrite (lineAddr n 2) r)
           lines := s.lines.set n { s.line n with ceilingRequest := r, effectiveCeiling := e }
           links := if (s.line n).state.flowing = true ∧ e ≠ (s.line n).lastSentCeiling
             then s.links.set n
               { s.link n with arrivals := (s.link n).arrivals ++ [⟨.request .setpoint, false⟩] }
             else s.links }
         (if e = (s.line n).effectiveCeiling then [] else [lineWord n 14 e])) := by
  have hexec : exec (.ceilingRequest n v) s =
      .next (((s.taking (lineAddr n 2) v).setLine n { s.line n with ceilingRequest := r, effectiveCeiling := e }).operation
        (.line n)
        ((if e = (s.line n).effectiveCeiling then [] else [postLine n 14 e]) ++
          [.requestCeiling n, answerOf { s.line n with ceilingRequest := r, effectiveCeiling := e } r none])) := by
    subst he hr
    exact (exec_setpoint hc n 2 v hb).trans (congrArg _ (if_pos hadm))
  have hposts : postsOf ((if e = (s.line n).effectiveCeiling then [] else [postLine n 14 e]) ++
      [.requestCeiling n, answerOf { s.line n with ceilingRequest := r, effectiveCeiling := e } r none]) =
      if e = (s.line n).effectiveCeiling then [] else [lineWord n 14 e] := by
    split <;> rfl
  have hothers : othersOf ((if e = (s.line n).effectiveCeiling then [] else [postLine n 14 e]) ++
      [.requestCeiling n, answerOf { s.line n with ceilingRequest := r, effectiveCeiling := e } r none]) =
      [.requestCeiling n, answerOf { s.line n with ceilingRequest := r, effectiveCeiling := e } r none] := by
    split <;> rfl
  have hline : ((s.taking (lineAddr n 2) v).setLine n { s.line n with ceilingRequest := r, effectiveCeiling := e }).line n =
      { s.line n with ceilingRequest := r, effectiveCeiling := e } := State.line_setLine_same _ _ _
  have hperform : [Act.requestCeiling n, answerOf { s.line n with ceilingRequest := r, effectiveCeiling := e } r none].foldl
      State.perform ((s.taking (lineAddr n 2) v).setLine n { s.line n with ceilingRequest := r, effectiveCeiling := e }) =
      { s with
        cycle := .write (fullWrite (lineAddr n 2) r)
        lines := s.lines.set n { s.line n with ceilingRequest := r, effectiveCeiling := e }
        links := if (s.line n).state.flowing = true ∧ e ≠ (s.line n).lastSentCeiling
          then s.links.set n
            { s.link n with arrivals := (s.link n).arrivals ++ [⟨.request .setpoint, false⟩] }
          else s.links } := by
    simp only [List.foldl_cons, List.foldl_nil]
    have hcond : ((s.line n).state.flowing && e != (s.line n).lastSentCeiling) = true ↔
        ((s.line n).state.flowing = true ∧ e ≠ (s.line n).lastSentCeiling) := by simp
    change State.perform (State.requestCeiling _ n) _ = _
    unfold State.requestCeiling
    rw [hline]
    by_cases h : (s.line n).state.flowing = true ∧ e ≠ (s.line n).lastSentCeiling
    · rw [if_pos (hcond.mpr h), if_pos h]
      rfl
    · rw [if_neg (hcond.not.mpr h), if_neg h]
      rfl
  rw [hexec, State.operation_line_eq, hposts, hothers, hperform]
  · rw [hposts]
    refine Nat.le_trans (Nat.add_le_add_left ?_ _) hroom
    split <;> simp
  · rw [hothers, hperform]
    nofun

/-- Settles O25. -/
theorem flowTargetAndCeilingRequestAreClampedAndTaken : Obligations.FlowTargetAndCeilingRequestAreClampedAndTaken := by
  unfold Obligations.FlowTargetAndCeilingRequestAreClampedAndTaken
  exact ⟨fun n v t s hc hb hroom ht => flowTarget_taken n v t hc hb hroom ht,
    fun n v r e s hc hb hroom hstate hr he => ceilingRequest_taken n v r e hc hb hroom (Line.admits_state.mpr hstate) hr he⟩

/-! ### MIX_REQUEST (R88 to R91) -/

theorem Line.stageWord_of_val {k j : Nat} (l : Line) (hk : k < 38) (hj : k = j) :
    l.stageWord (Fin.ofNat 38 j) = l.stageWord ⟨k, hk⟩ := by
  subst hj
  exact congrArg l.stageWord (Fin.ext (Nat.mod_eq_of_lt hk))

theorem Line.stepAdmitted_iff (l : Line) (v : Word) :
    l.stepAdmitted v = true ↔ v.toNat = l.mixIndex.toNat + 1 ∧ v.toNat < (l.stageWord 23).toNat ∧
      (l.stepVolume l.mixIndex).toNat ≤ (l.take - l.takeAtStep).toNat := by
  unfold Line.stepAdmitted Line.mixCount
  rw [Bool.and_eq_true, Bool.and_eq_true, beq_iff_eq, decide_eq_true_eq, decide_eq_true_eq, and_assoc]

/-- Settles O26. -/
theorem aMixStepIsAdmittedInOrder : Obligations.AMixStepIsAdmittedInOrder := by
  unfold Obligations.AMixStepIsAdmittedInOrder
  refine ⟨fun l words k h => ?_, fun l i k => ⟨fun h => ?_, fun h => ?_⟩,
    fun n v s hc hb => ⟨fun hstate hv => ?_, fun hstate hnext hcount hvol => ?_⟩⟩
  · rw [Line.stageWord, h]
  · exact congrArg (BitVec.setWidth 8) (l.stageWord_of_val k.isLt h)
  · exact l.stageWord_of_val k.isLt h
  · rw [exec_mixRequest_of_idle hc n v hb]
    unfold State.lineMixRequest
    have hadm : ¬ (!(s.line n).state.admits) = true := by rw [Line.admits_state.mpr hstate]; decide
    refine congrArg _ ((if_neg hadm).trans ((if_pos hv).trans ?_))
    subst hv
    exact (State.operation_line_noPosts (s := s.taking (lineAddr n 3) _) n [answerOf _ _ none] (by simp [Act.isPost, answerOf])
      nofun)
  · have hne : v ≠ (s.line n).mixIndex := by
      rintro rfl
      omega
    have hadm : ¬ (!(s.line n).state.admits) = true := by rcases hstate with h | h <;> rw [h] <;> decide
    have hstep : (((s.line n).state == .injecting || (s.line n).state == .holding) && (s.line n).stepAdmitted v) = true := by
      rw [(Line.stepAdmitted_iff _ _).mpr ⟨hnext, hcount, hvol⟩]
      simpa using hstate
    rw [exec_mixRequest_of_idle hc n v hb]
    unfold State.lineMixRequest
    refine congrArg _ ((if_neg hadm).trans ((if_neg hne).trans ((if_pos hstep).trans ?_)))
    exact State.operation_line_noPosts n [.request n .mix, .hand (mixSteppedReport n (s.line n) v s.clock), answerOf _ _ none]
      (by simp [Act.isPost, answerOf]) nofun

/-! ### Setpoints answered as refused (R11, R76) -/

/-- What the Pass-Through Unit makes of a supervisor's operation without posts. -/
theorem State.operation_line_react (s : State) (n : LineNo) (acts : List Act) (h : ∀ a ∈ acts, a.isPost = false) :
    s.operation (.line n) acts = (acts.foldl State.perform s).react := by
  change State.react _ = _
  rw [s.operate_without_posts _ _ h]

/-- A supervisor that answers a setpoint as refused, and the Pass-Through Unit's action on the answer. -/
theorem State.answerRefused_of_taking (n : LineNo) (word : Nat) (hword : word < 64) (v value : Word) (r : RefuseReason)
    (hroom : s.room 3) :
    (s.taking (lineAddr n word) v).answerRefused n value r =
      State.postAll
        { s with
          cycle := .write (fullWrite (lineAddr n word) value)
          refusal := ⟨some r, lineAddr n word⟩
          report := s.reported
            { kind := .writeRefused, line := lineByte n, stage := stageByte (s.line n).stage, time := s.clock,
              valueA := (lineAddr n word).setWidth 32, valueB := longOf v (wordOf 3 (lowByte r.code)) } }
        (refusalWords (lineAddr n word) r) := by
  have hrep : writeRefusedReport (fullWrite (lineAddr n word) v) r (stageByte (s.line n).stage) s.clock =
      { kind := .writeRefused, line := lineByte n, stage := stageByte (s.line n).stage, time := s.clock,
        valueA := (lineAddr n word).setWidth 32, valueB := longOf v (wordOf 3 (lowByte r.code)) } := by
    unfold writeRefusedReport
    rw [show (fullWrite (lineAddr n word) v).addr = lineAddr n word from rfl, addrLine_lineAddr n hword]
    rfl
  rw [← hrep]
  unfold State.answerRefused
  rw [State.operation_line_react _ n _ (by simp [Act.isPost, answerOf])]
  exact State.operate_of_room _ _ _ hroom

/-- Settles O27. -/
theorem aSetpointOutOfPlaceIsAnsweredAsRefused : Obligations.ASetpointOutOfPlaceIsAnsweredAsRefused := by
  unfold Obligations.ASetpointOutOfPlaceIsAnsweredAsRefused
  refine ⟨fun st => ?_, fun n v s hc hb hroom c word value r hcase => ?_⟩
  · cases st <;> simp [LineState.admits, LineState.flowing, LineState.idleBound]
  have hmix : (s.taking (lineAddr n 3) v).line n = s.line n := rfl
  rcases hcase with ⟨hadm, rfl, ⟨rfl, rfl, rfl⟩ | ⟨rfl, rfl, rfl⟩ | ⟨rfl, rfl, rfl⟩⟩ |
    ⟨hadm, rfl, rfl, rfl, rfl, hne, hbad⟩
  · rw [exec_flowTarget_of_idle hc n v hb]
    exact congrArg _ ((if_neg (Bool.not_eq_true _ ▸ hadm)).trans
      (State.answerRefused_of_taking n 1 (by decide) v 0 .lineState hroom))
  · rw [exec_ceilingRequest_of_idle hc n v hb]
    exact congrArg _ ((if_neg (Bool.not_eq_true _ ▸ hadm)).trans
      (State.answerRefused_of_taking n 2 (by decide) v 0 .lineState hroom))
  · rw [exec_mixRequest_of_idle hc n v hb]
    exact congrArg _ ((if_pos (by rw [hmix, hadm]; rfl)).trans
      (State.answerRefused_of_taking n 3 (by decide) v _ .lineState hroom))
  · have hstep : ¬ (((s.line n).state == .injecting || (s.line n).state == .holding) && (s.line n).stepAdmitted v) = true := by
      rw [Bool.and_eq_true, Line.stepAdmitted_iff]
      rintro ⟨hstate, hnext, hcount, hvol⟩
      rcases hbad with h | h | h | h | h
      · simp [h] at hstate
      · simp [h] at hstate
      · exact h hnext
      · exact absurd hcount (Nat.not_lt.mpr h)
      · exact absurd hvol (Nat.not_le.mpr h)
    rw [exec_mixRequest_of_idle hc n v hb]
    exact congrArg _ ((if_neg (by rw [hmix, hadm]; decide)).trans ((if_neg hne).trans ((if_neg hstep).trans
      (State.answerRefused_of_taking n 3 (by decide) v _ .mixOrder hroom))))

/-! ### CONSUMER (R12) -/

/-- The difference of two indices of a ring, counted modulo its size. -/
theorem modDiff_eq {size a b : Nat} (hb : b < size) : modDiff size a b = (a + size - b) % size := by
  rw [modDiff, Nat.mod_eq_of_lt hb, Nat.add_sub_assoc (Nat.le_of_lt hb)]

theorem State.admitsConsumer_of_ring {ring : Ring} (v : Word) (hring : s.report.ring = some ring)
    (hcons : s.report.consumer < ring.size) :
    s.admitsConsumer v = true ↔ s.report.placement = false ∧ queued s.queue (statusAddr 5) = false ∧ v.toNat < ring.size ∧
      (v.toNat + ring.size - s.report.consumer) % ring.size ≤
        (s.report.producer + ring.size - s.report.consumer) % ring.size := by
  simp [State.admitsConsumer, hring, modDiff_eq hcons, and_assoc]

theorem exec_consumer (hc : s.cycle = .idle) (v : Word) :
    exec (.consumer v) s = .next (s.takeConsumer (fullWrite (statusAddr 5) v)) := by
  simp [exec, execConsumer, State.presentConsumer, hc]

/-- The report of a consumer index out of range (R12, R15). -/
theorem consumerRefused_report (v : Word) (now : Long) :
    writeRefusedReport (fullWrite (statusAddr 5) v) .consumerRange 0xFF now =
      { kind := .writeRefused, line := 0xFF, stage := 0xFF, time := now, valueA := 0x000FF84A, valueB := longOf v 0x0304 } := by
  have haddr : statusAddr 5 = 0xFF84A := by decide
  have hline : addrLine 0xFF84A = 0xFF := by decide
  have hcode : wordOf Lanes.both.code (lowByte RefuseReason.consumerRange.code) = 0x0304 := by decide
  unfold writeRefusedReport fullWrite
  rw [haddr, hline, hcode]
  rfl

/-- Settles O28. -/
theorem aConsumerWriteIsCheckedAgainstTheRing : Obligations.AConsumerWriteIsCheckedAgainstTheRing := by
  unfold Obligations.AConsumerWriteIsCheckedAgainstTheRing
  refine fun v s hc hroom => ⟨fun ring hring hcons _ hplace hqueued hlt hpast => ?_, fun h => ?_⟩
  · rw [exec_consumer hc]
    exact congrArg _ (if_pos ((State.admitsConsumer_of_ring v hring hcons).mpr ⟨hplace, hqueued, hlt, hpast⟩))
  · have hno : ¬ s.admitsConsumer v = true := by
      intro hadm
      rcases h with h | h | h | ⟨ring, hring, hcons, _, h⟩
      · simp [State.admitsConsumer, h] at hadm
      · cases hr : s.report.ring <;> simp [State.admitsConsumer, hr, h] at hadm
      · cases hr : s.report.ring <;> simp [State.admitsConsumer, hr, h] at hadm
      · obtain ⟨-, -, hlt, hpast⟩ := (State.admitsConsumer_of_ring v hring hcons).mp hadm
        rcases h with h | h
        · exact absurd hlt (Nat.not_lt.mpr h)
        · exact absurd hpast (Nat.not_le.mpr h)
    rw [exec_consumer hc]
    refine congrArg _ ((if_neg hno).trans ((State.refuseOutright_of_room hroom _ _ _).trans ?_))
    rw [consumerRefused_report, ← hc]
    rfl

end Sys2Proof.Machine
end
-- ==== Sys2Proof/Proofs/EndOfCopy.lean ====
section
/-! PROOFS. The end of a BIND copy (O29): validation by the first word that fails, and the moves to BOUND and to VACANT. -/

namespace Sys2Proof.Machine

variable {s : State}

/-! ### Validation (R36 to R40) -/

/-- Validation passes where the sum is 0 and every word passes its test. -/
theorem validateCopy_eq_none_iff (st : StageNo) (f : Filling) :
    validateCopy st f = none ↔ f.sum = 0 ∧ ∀ k, k < 38 → recordWordHolds st (copyNat f.words) k := by
  unfold validateCopy
  by_cases hsum : f.sum = 0
  · rw [if_neg (not_not.mpr hsum), Option.map_eq_none_iff, List.find?_range_eq_none]
    refine ⟨fun h => ⟨hsum, fun k hk => (fieldOk_iff st _ k hk).mp ?_⟩, fun h k hk => ?_⟩
    · simpa using h k hk
    · simpa using (fieldOk_iff st _ k hk).mpr (h.2 k hk)
  · rw [if_pos hsum]
    exact ⟨nofun, fun h => absurd h.1 hsum⟩

/-- The first word that fails is the one named (R40). -/
theorem validateCopy_of_first {st : StageNo} {f : Filling} {k : Nat} (hk : k < 38) (hsum : f.sum = 0)
    (hfails : ¬ recordWordHolds st (copyNat f.words) k) (hfirst : ∀ j, j < k → recordWordHolds st (copyNat f.words) j) :
    validateCopy st f = some ⟨.recordField, k, foundAt f.words k⟩ := by
  have hfind : (List.range 38).find? (fun k => !fieldOk st (copyNat f.words) k) = some k := by
    rw [List.find?_range_eq_some]
    refine ⟨?_, List.mem_range.mpr hk, fun j hj => ?_⟩
    · have := (fieldOk_iff st (copyNat f.words) k hk).not.mpr hfails
      simpa using this
    · simpa using (fieldOk_iff st (copyNat f.words) j (Nat.lt_trans hj hk)).mpr (hfirst j hj)
  unfold validateCopy
  rw [if_neg (not_not.mpr hsum), hfind]
  rfl

/-! ### The two ends (R72, R73) -/

theorem exec_bindCopyComplete {n : LineNo} {tag : Byte} {rest : List Byte} (hb : s.busy (.line n) = false)
    (hjob : (s.line n).mail.jobDone = tag :: rest) :
    exec (.bindCopyComplete n) s = .next ((s.setLine n (withJobDone (s.line n) rest)).endBind n tag) := by
  simp only [exec, execBindCopyComplete, hb, hjob]
  rfl

/-- A job-complete event with the line's tag of a copy that passes. -/
theorem State.endBind_of_passed {n : LineNo} {st : StageNo} {f : Filling} (hstate : (s.line n).state = .binding)
    (hstage : (s.line n).stage = some st) (hfill : (s.line n).filling = some f) (hvalid : validateCopy st f = none) :
    s.endBind n (s.line n).copyTag = s.bindPassed n st f := by
  unfold State.endBind
  refine (if_pos ⟨hstate, rfl⟩).trans ?_
  simp only [hstage, hfill, hvalid]

/-- A job-complete event with the line's tag of a copy that fails. -/
theorem State.endBind_of_failed {n : LineNo} {st : StageNo} {f : Filling} {e : CopyFailure}
    (hstate : (s.line n).state = .binding) (hstage : (s.line n).stage = some st) (hfill : (s.line n).filling = some f)
    (hvalid : validateCopy st f = some e) : s.endBind n (s.line n).copyTag = s.bindFailed n st e := by
  unfold State.endBind
  refine (if_pos ⟨hstate, rfl⟩).trans ?_
  simp only [hstage, hfill, hvalid]

theorem State.endBind_of_other {n : LineNo} {tag : Byte} (h : (s.line n).state ≠ .binding ∨ tag ≠ (s.line n).copyTag) :
    s.endBind n tag = s := by
  unfold State.endBind
  refine if_neg fun hbind => ?_
  obtain ⟨hstate, htag⟩ := hbind
  rcases h with h | h
  · exact h hstate
  · exact h htag

theorem statePosts_enterBound (n : LineNo) (l : Line) (words : Vector Word 38) :
    statePosts n (l.enterBound words) = [postLine n 4 (wordOf (stageByte l.stage) 2), postLine n 6 0] := by
  have hword : stateWord (l.enterBound words) = wordOf (stageByte l.stage) 2 := stateWord_of_rise_clear rfl rfl
  unfold statePosts
  rw [hword]
  rfl

theorem statePosts_enterVacant (n : LineNo) (l : Line) (r : LeaveReason) :
    statePosts n (l.enterVacant r) = [postLine n 4 0xFF00, postLine n 6 (wordOf 0 r.code)] := by
  unfold statePosts
  rw [stateWord_enterVacant]
  rfl

theorem State.confirm_of_binding {n : LineNo} {st : StageNo} (h : s.bindingOf st = some ⟨n, .binding⟩) :
    s.confirm n st = s.setBinding st (some ⟨n, .bound⟩) := if_pos h

theorem State.clearBinding_of_line {n : LineNo} {st : StageNo} {ph : Phase} (h : s.bindingOf st = some ⟨n, ph⟩) :
    s.clearBinding n (some st) = s.setBinding st none := by
  simp [State.clearBinding, h]

/-- A copy that passes binds its line (R72). -/
theorem State.bindPassed_eq {n : LineNo} {st : StageNo} {f : Filling} (hbind : s.bindingOf st = some ⟨n, .binding⟩)
    (hroom : s.room 2) (hc : ∀ w v r b, s.cycle ≠ .answered w v r b) :
    s.bindPassed n st f =
      State.postAll
        { s with
          binding := s.binding.set st (some ⟨n, .bound⟩)
          lines := s.lines.set n ((s.line n).enterBound f.words)
          report := s.reported (bindDoneReport n ((s.line n).enterBound f.words) f.check s.clock) }
        [lineWord n 4 (wordOf (stageByte (s.line n).stage) 2), lineWord n 6 0] := by
  unfold State.bindPassed
  dsimp only
  rw [State.confirm_of_binding hbind, statePosts_enterBound]
  exact State.operation_line_eq (s := (s.setBinding st (some ⟨n, .bound⟩)).setLine n ((s.line n).enterBound f.words)) n
    [_, _, .hand _] hroom hc

/-- A copy that fails frees its line (R73). -/
theorem State.bindFailed_eq {n : LineNo} {st : StageNo} {ph : Phase} {e : CopyFailure} (hbind : s.bindingOf st = some ⟨n, ph⟩)
    (hroom : s.room 2) (hc : ∀ w v r b, s.cycle ≠ .answered w v r b) :
    s.bindFailed n st e =
      State.postAll
        { s with
          binding := s.binding.set st none
          lines := s.lines.set n ((s.line n).enterVacant e.reason)
          report := s.reported (bindFailedReport n st e s.clock) }
        [lineWord n 4 0xFF00, lineWord n 6 (wordOf 0 e.reason.code)] := by
  unfold State.bindFailed
  dsimp only
  rw [State.clearBinding_of_line hbind, statePosts_enterVacant]
  exact State.operation_line_eq (s := (s.setBinding st none).setLine n ((s.line n).enterVacant e.reason)) n
    [_, _, .hand _] hroom hc

/-- Settles O29. -/
theorem theEndOfACopyBindsOrFreesTheLine : Obligations.TheEndOfACopyBindsOrFreesTheLine := by
  unfold Obligations.TheEndOfACopyBindsOrFreesTheLine
  refine ⟨fun st f v hv => ?_, fun n tag rest l s hb hroom hc hjob hl => ?_⟩
  · obtain rfl : v = copyNat f.words := funext hv
    exact ⟨validateCopy_eq_none_iff st f, validateCopy_of_sum_ne_zero st,
      fun k hk hsum hfails hfirst => validateCopy_of_first hk hsum hfails hfirst⟩
  have hline : (s.setLine n l).line n = l := s.line_setLine_same n l
  have hset (l' : Line) : (s.setLine n l).lines.set n l' = s.lines.set n l' := by
    unfold State.setLine
    exact Vector.set_set ..
  rw [exec_bindCopyComplete hb hjob, ← hl]
  refine ⟨fun h => congrArg _ (State.endBind_of_other (by rwa [hline])),
    fun st f hstate htag hstage hfill hbind => ?_⟩
  refine ⟨fun hvalid => ?_, fun e hvalid => ?_⟩
  · have hend := State.endBind_of_passed (s := s.setLine n l) (n := n) (by rwa [hline]) (by rwa [hline]) (by rwa [hline]) hvalid
    rw [hline, ← htag] at hend
    rw [hend, State.bindPassed_eq (s := s.setLine n l) hbind hroom hc, hline, hset, hstage]
    unfold Line.enterBound bindDoneReport
    rw [hstage]
    rfl
  · have hend := State.endBind_of_failed (s := s.setLine n l) (n := n) (by rwa [hline]) (by rwa [hline]) (by rwa [hline]) hvalid
    rw [hline, ← htag] at hend
    rw [hend, State.bindFailed_eq (s := s.setLine n l) hbind hroom hc, hline, hset]
    rfl

end Sys2Proof.Machine
end
-- ==== Sys2Proof/Proofs/SampleChecks.lean ====
section
/-! PROOFS. The checks of a sample (R99 to R103, R108, R109, R113 to R125): which check decides, and what it does. -/

namespace Sys2Proof.Machine

/-! ### Trip and hold checks (R113, R114, R120) -/

theorem tripCheck_of_over {l : Line} {x : Sample} (h : (l.stageWord 3).toNat + (l.stageWord 4).toNat < x.pressure.toNat) :
    tripCheck l x =
      some (.overpressure, longOf x.pressure (BitVec.ofNat 16 ((l.stageWord 3).toNat + (l.stageWord 4).toNat)),
        longOf x.flow l.admitted) :=
  if_pos h

theorem tripCheck_of_uplift {l : Line} {x : Sample} (hp : x.pressure.toNat ≤ (l.stageWord 3).toNat + (l.stageWord 4).toNat)
    (hu : (l.stageWord 36).getLsbD 0 = true ∧ l.stageWord 15 < x.uplift) :
    tripCheck l x = some (.uplift, longOf x.uplift (l.stageWord 15), longOf x.pressure x.flow) := by
  have hcond : (l.upliftCheck && decide (l.stageWord 15 < x.uplift)) = true := by
    rw [Bool.and_eq_true, decide_eq_true_eq]
    exact hu
  exact (if_neg (Nat.not_lt.mpr hp)).trans (if_pos hcond)

/-- Neither OVERPRESSURE nor UPLIFT. -/
theorem tripCheck_of_calm {l : Line} {x : Sample} (hp : x.pressure.toNat ≤ (l.stageWord 3).toNat + (l.stageWord 4).toNat)
    (hu : (l.stageWord 36).getLsbD 0 = false ∨ x.uplift ≤ l.stageWord 15) :
    tripCheck l x =
      if driveFault l.flags then some (.driveFault, longOf x.pressure x.flow, longOf (l.flags.setWidth 16) 0)
      else if l.state.flowing && pressureBreak l x then
        some (.pressureBreak, longOf x.pressure x.flow, longOf (peakPair l.window).1 (peakPair l.window).2)
      else none := by
  have hcond : ¬ (l.upliftCheck && decide (l.stageWord 15 < x.uplift)) = true := by
    rw [Bool.and_eq_true, decide_eq_true_eq]
    rintro ⟨hset, hlt⟩
    rcases hu with h | h
    · exact absurd (hset.symm.trans h) (by decide)
    · exact BitVec.not_lt.mpr h hlt
  exact (if_neg (Nat.not_lt.mpr hp)).trans (if_neg hcond)

/-- The break condition by the peak pair of the window (R114). -/
theorem pressureBreak_iff {l : Line} {x : Sample} {pk : Word × Word} (hpk : peakPair l.window = pk) :
    pressureBreak l x = true ↔
      4 ≤ l.window.length ∧ 100 ≤ pk.1.toNat ∧
        x.pressure.toNat * 100 + pk.1.toNat * (l.stageWord 13).toNat ≤ pk.1.toNat * 100 ∧
        pk.2.toNat * (100 + (l.stageWord 14).toNat) ≤ x.flow.toNat * 100 := by
  unfold pressureBreak
  rw [hpk]
  simp only [Bool.and_eq_true, decide_eq_true_eq, and_assoc]

/-- A window too short cannot break. -/
theorem pressureBreak_of_empty {l : Line} {x : Sample} (h : l.window = []) : pressureBreak l x = false := by
  rw [← Bool.not_eq_true, pressureBreak_iff rfl, h]
  rintro ⟨hlen, -⟩
  cases hlen

theorem tripCheck_of_no_break {l : Line} {x : Sample} (hp : x.pressure.toNat ≤ (l.stageWord 3).toNat + (l.stageWord 4).toNat)
    (hu : (l.stageWord 36).getLsbD 0 = false ∨ x.uplift ≤ l.stageWord 15) (hd : l.flags.getLsbD 2 = false)
    (hb : l.state.flowing = false ∨ l.window = []) : tripCheck l x = none := by
  have hcond : (l.state.flowing && pressureBreak l x) = false := by
    rcases hb with h | h
    · rw [h, Bool.false_and]
    · rw [pressureBreak_of_empty h, Bool.and_false]
  rw [tripCheck_of_calm hp hu, driveFault, hd, hcond]
  rfl

theorem tripCheck_of_peak {l : Line} {x : Sample} (hp : x.pressure.toNat ≤ (l.stageWord 3).toNat + (l.stageWord 4).toNat)
    (hu : (l.stageWord 36).getLsbD 0 = false ∨ x.uplift ≤ l.stageWord 15) (hd : l.flags.getLsbD 2 = false)
    {pk : Word × Word} (hpk : peakPair l.window = pk) (hflow : l.state.flowing = true) :
    tripCheck l x =
      if 4 ≤ l.window.length ∧ 100 ≤ pk.1.toNat ∧
          x.pressure.toNat * 100 + pk.1.toNat * (l.stageWord 13).toNat ≤ pk.1.toNat * 100 ∧
          pk.2.toNat * (100 + (l.stageWord 14).toNat) ≤ x.flow.toNat * 100
      then some (.pressureBreak, longOf x.pressure x.flow, longOf pk.1 pk.2) else none := by
  rw [tripCheck_of_calm hp hu, driveFault, hd, if_neg Bool.false_ne_true, hpk, hflow, Bool.true_and]
  exact if_congr (pressureBreak_iff hpk) rfl rfl

/-! ### The moves of the checks, with their posts -/

theorem Line.leaveIdle_of_flowing {l : Line} (h : l.state.flowing = true) : l.leaveIdle = l := by
  refine if_neg ?_
  revert h
  cases l.state <;> decide

theorem Line.enterTripped_of_flowing {l : Line} (h : l.state.flowing = true) (c : TripCause) :
    l.enterTripped c =
      { l with
        state := .tripped, tripCause := some c, admitted := 0, ramp := .stopped, dwell := .stopped,
        settle := .stopped, holdReason := none } := by
  unfold Line.enterTripped
  rw [Line.leaveIdle_of_flowing h]

/-- A trip of a flowing line (R115, R116). -/
theorem tripMove_of_flowing {l : Line} (h : l.state.flowing = true) (n : LineNo) (c : TripCause) (t a b : Long) :
    tripMove n l c t a b =
      ({ l with
          state := .tripped, tripCause := some c, admitted := 0, ramp := .stopped, dwell := .stopped,
          settle := .stopped, holdReason := none },
        [postLine n 15 0] ++ dwellPosts n l.state ++
          [postLine n 4 (stateWord { l with state := .tripped }), postLine n 6 (wordOf 0 c.code)],
        [.stop n,
          .hand
            { kind := .trip, detail := c.code.setWidth 7, line := lineByte n, stage := stageByte l.stage, time := t,
              valueA := a, valueB := b }]) := by
  unfold tripMove
  rw [Line.enterTripped_of_flowing h, h]
  rfl

/-- A trip of an idle line (R53, R115, R116). -/
theorem tripMove_of_idleBound {l : Line} (h : l.state = .bound ∨ l.state = .holding) (n : LineNo) (c : TripCause) (t a b : Long) :
    tripMove n l c t a b =
      ({ l with
          state := .tripped, tripCause := some c, admitted := 0, ramp := .stopped, dwell := .stopped,
          settle := .stopped, baseline := none, riseFlag := false, holdReason := none },
        [postLine n 4 (wordOf (stageByte l.stage) 7), postLine n 6 (wordOf 0 c.code)],
        [.stop n,
          .hand
            { kind := .trip, detail := c.code.setWidth 7, line := lineByte n, stage := stageByte l.stage, time := t,
              valueA := a, valueB := b }]) := by
  have hflow := LineState.flowing_of_idleBound h
  have hdwell : dwellPosts n l.state = [] := if_neg (by rcases h with h | h <;> rw [h] <;> decide)
  have hidle : l.state.idleBound = true := by rcases h with h | h <;> rw [h] <;> rfl
  have hline : l.enterTripped c =
      { l with
        state := .tripped, tripCause := some c, admitted := 0, ramp := .stopped, dwell := .stopped,
        settle := .stopped, baseline := none, riseFlag := false, holdReason := none } := by
    unfold Line.enterTripped Line.leaveIdle
    rw [if_pos hidle]
  have hword : stateWord
      { l with
        state := .tripped, tripCause := some c, admitted := 0, ramp := .stopped, dwell := .stopped,
        settle := .stopped, baseline := none, riseFlag := false, holdReason := none } =
      wordOf (stageByte l.stage) 7 := stateWord_of_rise_clear rfl rfl
  unfold tripMove statePosts
  rw [hline, hflow, hdwell]
  dsimp only
  rw [hword]
  rfl

/-- A hold by the part (R55, R122). -/
theorem holdMove_eq (n : LineNo) (l : Line) (r : HoldReason) (t a b : Long) :
    holdMove n l r t a b =
      ({ l with
          state := .holding, holdReason := some r, admitted := 0, ramp := .stopped, dwell := .stopped,
          settle := .running (1000 * (l.stageWord 37).toNat), baseline := none, riseFlag := false },
        [postLine n 15 0] ++ dwellPosts n l.state ++
          [postLine n 4 (wordOf (stageByte l.stage) 5), postLine n 6 (wordOf 0 r.code)],
        [.request n .setpoint,
          .hand
            { kind := .holdImposed, detail := r.code.setWidth 7, line := lineByte n, stage := stageByte l.stage, time := t,
              valueA := a, valueB := b }]) := by
  have hword : stateWord (l.enterHolding r) = wordOf (stageByte l.stage) 5 := stateWord_of_rise_clear rfl rfl
  unfold holdMove statePosts
  dsimp only
  rw [hword]
  rfl

/-- The end of a flowing line (R56, R108, R109). -/
theorem endMove_of_flowing {l : Line} (h : l.state.flowing = true) (n : LineNo) (r : EndReason) (now : Long) :
    endMove n l r now =
      ({ l with
          state := .ended, endReason := some r, admitted := 0, ramp := .stopped, dwell := .stopped, settle := .stopped },
        [postLine n 15 0] ++ dwellPosts n l.state ++
          [postLine n 4 (stateWord { l with state := .ended }), postLine n 6 (wordOf 0 r.code)],
        [.stop n, .hand (endedReport n l r now)]) := by
  have hline : l.enterEnded r =
      { l with
        state := .ended, endReason := some r, admitted := 0, ramp := .stopped, dwell := .stopped, settle := .stopped } := by
    unfold Line.enterEnded
    rw [Line.leaveIdle_of_flowing h]
  unfold endMove
  rw [hline]
  rfl

/-! ### The checks in order (R101) -/

/-- The line with the pair of a sample in its window (R100). -/
def Line.withPair (l : Line) (x : Sample) : Line :=
  { l with window := (l.window ++ [(x.pressure, x.flow)]).drop (l.window.length + 1 - 8) }

theorem Line.withPair_eq (l : Line) (x : Sample) :
    l.withPair x = { l with window := windowAppend l.window (x.pressure, x.flow) } := rfl

theorem sampleChecks_of_closed {l : Line}
    (h : l.state = .vacant ∨ l.state = .binding ∨ l.state = .ended ∨ l.state = .tripped) (n : LineNo) (x : Sample) (now : Long) :
    sampleChecks n l x now = (l, []) := by
  unfold sampleChecks
  rcases h with h | h | h | h <;> rw [h]

section Flowing

variable {l : Line} {x : Sample} {now : Long} {n : LineNo}

theorem flowingChecks_of_trip {c : TripCause} {a b : Long} (h : tripCheck l x = some (c, a, b)) :
    flowingChecks n l x now = moveActs (tripMove n l c x.arrival a b) := by
  unfold flowingChecks
  rw [h]

theorem flowingChecks_of_hold {r : HoldReason} (ht : tripCheck l x = none) (h : holdCheck l = some r) :
    flowingChecks n l x now =
      moveActs (holdMove n l r x.arrival (longOf x.pressure x.flow) (longOf (l.flags.setWidth 16) 0)) := by
  unfold flowingChecks
  rw [ht, h]

/-- Neither a trip nor a hold: the ends and the refusal condition. -/
theorem flowingChecks_of_none (ht : tripCheck l x = none) (h : holdCheck l = none) :
    flowingChecks n l x now =
      if l.stageWord 12 ≤ l.take then moveActs (endMove n l .volumeCap now)
      else if l.intensityCeiling < l.stageWord 5 then moveActs (endMove n l .intensity now)
      else refusalCheck n l x := by
  unfold flowingChecks
  rw [ht, h]
  rfl

theorem flowingChecks_of_end (ht : tripCheck l x = none) (h : holdCheck l = none) {r : EndReason}
    (hr : l.stageWord 12 ≤ l.take ∧ r = .volumeCap ∨
      l.take < l.stageWord 12 ∧ l.intensityCeiling < l.stageWord 5 ∧ r = .intensity) :
    flowingChecks n l x now = moveActs (endMove n l r now) := by
  rw [flowingChecks_of_none ht h]
  rcases hr with ⟨hcap, rfl⟩ | ⟨hcap, hint, rfl⟩
  · exact if_pos hcap
  · exact (if_neg (BitVec.not_le.mpr hcap)).trans (if_pos hint)

theorem flowingChecks_of_open (ht : tripCheck l x = none) (h : holdCheck l = none) (hcap : l.take < l.stageWord 12)
    (hint : l.stageWord 5 ≤ l.intensityCeiling) : flowingChecks n l x now = refusalCheck n l x := by
  rw [flowingChecks_of_none ht h]
  exact (if_neg (BitVec.not_le.mpr hcap)).trans (if_neg (BitVec.not_lt.mpr hint))

theorem refusalCondition_iff : refusalCondition l x = true ↔ l.stageWord 5 ≤ x.pressure ∧ x.flow ≤ l.stageWord 6 := by
  unfold refusalCondition
  rw [Bool.and_eq_true, decide_eq_true_eq, decide_eq_true_eq]
  rfl

theorem refusalCheck_of_closing_held (hstate : l.state = .closing) (h : refusalCondition l x = true) :
    refusalCheck n l x = (l, []) :=
  (if_pos hstate).trans (if_pos h)

theorem refusalCheck_of_closing_lost (hstate : l.state = .closing) (h : ¬ refusalCondition l x = true) :
    refusalCheck n l x =
      ({ l with state := .injecting, dwell := .stopped, window := [] },
        [.post (lineWord n 19 0), .post (lineWord n 4 (stateWord { l with state := .injecting })), .post (lineWord n 6 0)]) :=
  (if_pos hstate).trans (if_neg h)

theorem refusalCheck_of_injecting (hstate : l.state = .injecting) (h : ¬ refusalCondition l x = true) :
    refusalCheck n l x = (l, []) :=
  (if_neg (by rw [hstate]; decide)).trans (if_neg h)

theorem refusalCheck_of_refusal (hstate : l.state = .injecting) (h : refusalCondition l x = true) :
    refusalCheck n l x =
      ({ l with state := .closing, dwell := .running (1000 * (l.stageWord 7).toNat) },
        [.post (lineWord n 19 (l.stageWord 7)), .post (lineWord n 4 (stateWord { l with state := .closing })),
          .post (lineWord n 6 0)]) :=
  (if_neg (by rw [hstate]; decide)).trans (if_pos h)

/-! ### Baseline, rise and return (R124, R125) -/

theorem boundChecks_of_trip {c : TripCause} {a b : Long} (h : tripCheck l x = some (c, a, b)) :
    boundChecks n l x = moveActs (tripMove n l c x.arrival a b) := by
  unfold boundChecks
  rw [h]

theorem boundChecks_of_none (h : tripCheck l x = none) : boundChecks n l x = idleChecks n l x := by
  unfold boundChecks
  rw [h]

theorem idleChecks_of_settling (h : l.settle ≠ .stopped) : idleChecks n l x = (l, []) := if_pos h

/-- A settled line judges the pressure against its baseline. -/
theorem idleChecks_of_settled (h : l.settle = .stopped) :
    idleChecks n l x =
      if l.riseFlag then ({ l with baseline := some (l.baseline.getD x.pressure) }, [])
      else if (l.baseline.getD x.pressure).toNat + (l.stageWord 16).toNat ≤ x.pressure.toNat then
        observed n { l with baseline := some (l.baseline.getD x.pressure) } x false (l.baseline.getD x.pressure)
      else if groutReturn l.flags then
        observed n { l with baseline := some (l.baseline.getD x.pressure) } x true (l.baseline.getD x.pressure)
      else ({ l with baseline := some (l.baseline.getD x.pressure) }, []) :=
  if_neg (not_not.mpr h)

theorem observed_of_stage {st : StageNo} (h : l.stage = some st) (back : Bool) (base : Word) :
    observed n l x back base =
      ({ l with riseFlag := true },
        [.post (lineWord n 4 (wordOf (BitVec.ofNat 8 st.val) (0x80 ||| lowByte l.state.code))),
          .observe ⟨n, st, back, x.pressure, base⟩]) := by
  have hword : stateWord { l with riseFlag := true } = wordOf (BitVec.ofNat 8 st.val) (0x80 ||| lowByte l.state.code) := by
    unfold stateWord
    rw [show ({ l with riseFlag := true } : Line).stage = some st from h]
    rfl
  unfold observed
  dsimp only
  rw [hword, h]
  rfl

/-- No observation: the flag is set already, or neither rise nor return. -/
theorem idleChecks_of_quiet {base : Word} (h : l.settle = .stopped) (hbase : base = l.baseline.getD x.pressure)
    (hq : l.riseFlag = true ∨ x.pressure.toNat < base.toNat + (l.stageWord 16).toNat ∧ l.flags.getLsbD 0 = false) :
    idleChecks n l x = ({ l with baseline := some base }, []) := by
  subst hbase
  rw [idleChecks_of_settled h]
  rcases hq with hrise | ⟨hlow, hflag⟩
  · exact if_pos hrise
  · split
    · rfl
    · refine (if_neg (Nat.not_le.mpr hlow)).trans (if_neg ?_)
      rw [groutReturn, hflag]
      decide

/-- A rise, or a return below it. -/
theorem idleChecks_of_observed {base : Word} {st : StageNo} {back : Bool} (h : l.settle = .stopped)
    (hbase : base = l.baseline.getD x.pressure) (hstage : l.stage = some st) (hrise : l.riseFlag = false)
    (ho : back = false ∧ base.toNat + (l.stageWord 16).toNat ≤ x.pressure.toNat ∨
      back = true ∧ x.pressure.toNat < base.toNat + (l.stageWord 16).toNat ∧ l.flags.getLsbD 0 = true) :
    idleChecks n l x =
      ({ l with baseline := some base, riseFlag := true },
        [.post (lineWord n 4 (wordOf (BitVec.ofNat 8 st.val) (0x80 ||| lowByte l.state.code))),
          .observe ⟨n, st, back, x.pressure, base⟩]) := by
  have hnot : ¬ l.riseFlag = true := by
    rw [hrise]
    decide
  subst hbase
  rw [idleChecks_of_settled h]
  rcases ho with ⟨rfl, hhigh⟩ | ⟨rfl, hlow, hflag⟩
  · exact (if_neg hnot).trans ((if_pos hhigh).trans
      (observed_of_stage (l := { l with baseline := some (l.baseline.getD x.pressure) }) hstage false _))
  · exact (if_neg hnot).trans ((if_neg (Nat.not_le.mpr hlow)).trans
      ((if_pos hflag).trans (observed_of_stage (l := { l with baseline := some (l.baseline.getD x.pressure) }) hstage true _)))

end Flowing

end Sys2Proof.Machine
end
-- ==== Sys2Proof/Proofs/Samples.lean ====
section
/-! PROOFS. SAMPLE (O30 to O33): the operation with room for its posts, for any accounting and any outcome of the checks. -/

namespace Sys2Proof.Machine

variable {s : State}

/-! ### Posts apart from what a sample does besides -/

/-- What acts of line n's sample do besides their posts. -/
def State.sampled (s : State) (n : LineNo) (acts : List Act) : State :=
  { s with
    links := s.links.set n { s.link n with arrivals := (s.link n).arrivals ++ arrivalsOf acts }
    report := { s.report with handed := s.report.handed ++ reportsOf acts }
    observations := s.observations ++ observationsOf acts }

theorem sampleActs_eq (s : State) (n : LineNo) (acts : List Act) :
    sampleActs s n acts = (s.sampled n acts).postAll (postsOf acts) := rfl

theorem State.sampled_postAll (s : State) (n : LineNo) (acts : List Act) (ps : List Post) :
    (s.postAll ps).sampled n acts = (s.sampled n acts).postAll ps := by
  unfold State.postAll
  induction ps generalizing s with
  | nil => rfl
  | cons p rest ih => exact ih (s.accept p)

theorem State.setLine_postAll (s : State) (n : LineNo) (l : Line) (ps : List Post) :
    (s.postAll ps).setLine n l = (s.setLine n l).postAll ps := by
  unfold State.postAll
  induction ps generalizing s with
  | nil => rfl
  | cons p rest ih => exact ih (s.accept p)

theorem State.line_postAll (s : State) (n : LineNo) (ps : List Post) : (s.postAll ps).line n = s.line n := by
  unfold State.postAll
  induction ps generalizing s with
  | nil => rfl
  | cons p rest ih => exact ih (s.accept p)

theorem State.clock_postAll (s : State) (ps : List Post) : (s.postAll ps).clock = s.clock := by
  unfold State.postAll
  induction ps generalizing s with
  | nil => rfl
  | cons p rest ih => exact ih (s.accept p)

theorem State.postAll_append (s : State) (ps qs : List Post) : (s.postAll ps).postAll qs = s.postAll (ps ++ qs) :=
  List.foldl_append.symm

theorem mem_postsOf {acts : List Act} {p : Post} : p ∈ postsOf acts ↔ Act.post p ∈ acts := by
  unfold postsOf
  rw [List.mem_filterMap]
  constructor
  · rintro ⟨a, ha, hp⟩
    cases a with
    | post q =>
      cases hp
      exact ha
    | _ => cases hp
  · exact fun h => ⟨_, h, rfl⟩

theorem reportsOf_append (l l' : List Act) : reportsOf (l ++ l') = reportsOf l ++ reportsOf l' := List.filterMap_append

theorem arrivalsOf_append (l l' : List Act) : arrivalsOf (l ++ l') = arrivalsOf l ++ arrivalsOf l' := List.filterMap_append

theorem observationsOf_append (l l' : List Act) : observationsOf (l ++ l') = observationsOf l ++ observationsOf l' :=
  List.filterMap_append

/-! ### The operation of a sample -/

/-- An accounting and checks of line n's sample: the line `l` after the accounting by `pre`, and `k` after the checks by
`post`, with places for their posts. -/
structure Sampled (s : State) (n : LineNo) (x : Sample) (l k : Line) (pre post : List Act) : Prop where
  seq : (s.line n).lastSampleSeq ≠ some x.seq
  meter : meterStep n (afterStep1 (s.line n) x) x = (l, pre)
  ofLine : ∀ a ∈ pre, a.isOfLine n = true
  posts : postsOf pre = []
  observes : observationsOf pre = []
  checks : sampleChecks n l x s.clock = (k, post)
  fits : ∃ A : List Addr, s.room A.length ∧ ∀ p ∈ measured n l x ++ postsOf post, p.addr ∈ A

/-- The state after the sample, but for its posts. -/
def State.afterSample (s : State) (n : LineNo) (k : Line) (pre post : List Act) : State :=
  { s with
    links := s.links.set n { s.link n with arrivals := (s.link n).arrivals ++ arrivalsOf pre ++ arrivalsOf post }
    lines := s.lines.set n k
    report := { s.report with handed := s.report.handed ++ reportsOf pre ++ reportsOf post }
    observations := s.observations ++ observationsOf post }

/-- An operation whose acts find places for their posts goes on to the checks, whose posts find places too. -/
theorem State.operate_sample {t : State} {n : LineNo} {x : Sample} {k : Line} {acts post : List Act} {A : List Addr}
    (hroom : s.room A.length) (hA : ∀ p, Act.post p ∈ acts → p.addr ∈ A) (hA' : ∀ p, Act.post p ∈ post → p.addr ∈ A)
    (ht : acts.foldl State.perform s = t) (hchecks : sampleChecks n (t.line n) x t.clock = (k, post)) :
    s.operate (.line n) acts (some (.sampleChecks n x)) = post.foldl State.perform (t.setLine n k) := by
  obtain ⟨hrun, hfits⟩ := State.runActs_of_addresses (.line n) (some (.sampleChecks n x)) A acts s hA
    (State.fits_of_room A s hroom)
  rw [ht] at hrun hfits
  have hcont : t.startCont (.sampleChecks n x) = (t.setLine n k, post) := by
    unfold State.startCont
    dsimp only
    rw [hchecks]
  have hrun' := (State.runActs_of_addresses (.line n) none A post (t.setLine n k) hA' hfits).1
  unfold State.operate
  rw [hrun]
  dsimp only
  rw [hcont, hrun']

/-- The accounting and the measurement words. -/
theorem foldl_perform_accounting {n : LineNo} {x : Sample} {l : Line} {pre : List Act} (hof : ∀ a ∈ pre, a.isOfLine n = true)
    (hposts : postsOf pre = []) :
    (pre ++ measurementPosts n l x).foldl State.perform s = (s.sampled n pre).postAll (measured n l x) := by
  obtain ⟨hmeasured, hnoArrival, hnoReport, hnoObs⟩ := measurementPosts_postsOf n l x
  have hof' : ∀ a ∈ pre ++ measurementPosts n l x, a.isOfLine n = true := by
    intro a ha
    rcases List.mem_append.mp ha with ha | ha
    · exact hof a ha
    · exact (measurementPosts_acts n l x a ha).1
  rw [foldl_perform_ofLine n _ _ hof', sampleActs_eq, postsOf_append, hposts, hmeasured, List.nil_append]
  unfold State.sampled
  rw [arrivalsOf_append, reportsOf_append, observationsOf_append, hnoArrival, hnoReport, hnoObs, List.append_nil,
    List.append_nil, List.append_nil]

theorem Sampled.operation {n : LineNo} {x : Sample} {l k : Line} {pre post : List Act} (h : Sampled s n x l k pre post) :
    (s.setLine n l).operate (.line n) (pre ++ measurementPosts n l x) (some (.sampleChecks n x)) =
      (s.afterSample n k pre post).postAll (measured n l x ++ postsOf post) := by
  obtain ⟨-, -, hof, hposts, hobs, hchecks, A, hroom, hA⟩ := h
  have hposts₁ : postsOf (pre ++ measurementPosts n l x) = measured n l x := by
    rw [postsOf_append, hposts, (measurementPosts_postsOf n l x).1, List.nil_append]
  have hof₂ : ∀ a ∈ post, a.isOfLine n = true := by
    intro a ha
    refine (sampleChecks_acts n l x s.clock a ?_).1
    rwa [hchecks]
  have hline : (((s.setLine n l).sampled n pre).postAll (measured n l x)).line n = l := by
    rw [State.line_postAll]
    exact s.line_setLine_same n l
  rw [State.operate_sample (s := s.setLine n l) (A := A) (k := k) (post := post) hroom
      (fun p hp => hA p (List.mem_append_left _ (hposts₁ ▸ mem_postsOf.mpr hp)))
      (fun p hp => hA p (List.mem_append_right _ (mem_postsOf.mpr hp))) (foldl_perform_accounting hof hposts)
      (by rw [hline, State.clock_postAll]; exact hchecks),
    foldl_perform_ofLine n _ _ hof₂, sampleActs_eq, State.setLine_postAll, State.sampled_postAll, State.postAll_append]
  congr 1
  simp [State.sampled, State.setLine, State.afterSample, State.link, hobs]

/-- A sample that is no duplicate is handled by the operation, whatever answer may not be waiting (R94, R95). -/
theorem Sampled.handle {n : LineNo} {x : Sample} {l k : Line} {pre post : List Act} (h : Sampled s n x l k pre post)
    (hc : ∀ w v r b, s.cycle ≠ .answered w v r b) :
    s.handleSample n x = (s.afterSample n k pre post).postAll (measured n l x ++ postsOf post) := by
  unfold State.handleSample
  dsimp only
  rw [if_neg h.seq]
  have hmeter : meterStep n { s.line n with lastSampleSeq := some x.seq, flags := x.flags.setWidth 4 } x = (l, pre) := h.meter
  rw [hmeter]
  change State.react _ = _
  rw [h.operation]
  refine State.react_of_not_answered ?_
  rw [State.postAll_cycle]
  exact hc

theorem Link.restartAsked_eq_false {k : Link} (h : ∀ a ∈ k.arrivals, a.input ≠ .restart) : k.restartAsked = false := by
  simpa [Link.restartAsked] using h

/-- The head of the FIFO is taken. -/
theorem exec_sample_of_head {n : LineNo} {x : Sample} {rest : List Sample} (hb : s.busy (.line n) = false)
    (hfifo : (s.link n).fifo = x :: rest) (hrestart : ∀ a ∈ (s.link n).arrivals, a.input ≠ .restart) :
    exec (.sample n) s =
      .next (((s.setLink n { s.link n with fifo := rest }).reportOverrun n).handleSample n x) := by
  simp only [exec, execSample, hb, hfifo, Link.restartAsked_eq_false hrestart]
  rfl

theorem State.reportOverrun_of_none {n : LineNo} (h : (s.link n).overrun = none) : s.reportOverrun n = s := by
  unfold State.reportOverrun
  rw [h]

theorem exec_sample_of_ready {n : LineNo} {x : Sample} {rest : List Sample} (h : sampleReady s n x rest) :
    exec (.sample n) s = .next ((s.setLink n { s.link n with fifo := rest }).handleSample n x) := by
  obtain ⟨hb, hfifo, hover, hrestart, -⟩ := h
  rw [exec_sample_of_head hb hfifo hrestart, State.reportOverrun_of_none]
  rw [State.link_setLink_same]
  exact hover

/-- SAMPLE for any accounting and any checks. -/
theorem Sampled.exec {n : LineNo} {x : Sample} {rest : List Sample} {l k : Line} {pre post : List Act}
    (h : Sampled s n x l k pre post) (hready : sampleReady s n x rest) :
    Machine.exec (.sample n) s =
      .next (State.postAll
        { s with
          links := s.links.set n
            { s.link n with fifo := rest, arrivals := (s.link n).arrivals ++ arrivalsOf pre ++ arrivalsOf post }
          lines := s.lines.set n k
          report := { s.report with handed := s.report.handed ++ reportsOf pre ++ reportsOf post }
          observations := s.observations ++ observationsOf post }
        (measured n l x ++ postsOf post)) := by
  obtain ⟨hseq, hmeter, hof, hposts, hobs, hchecks, hfits⟩ := h
  have h' : Sampled (s.setLink n { s.link n with fifo := rest }) n x l k pre post :=
    ⟨hseq, hmeter, hof, hposts, hobs, hchecks, hfits⟩
  rw [exec_sample_of_ready hready, h'.handle hready.2.2.2.2]
  simp [State.afterSample, State.setLink, State.link]

/-! ### What the accounting keeps -/

section Accounted

variable {n : LineNo} {before l : Line} {x : Sample} {reports : List Report} {requests : List LinkArrival}

/-- The accounting changes the counts of a line alone. -/
theorem accountedAs_kept (h : accountedAs n before x l reports requests) :
    l.state = before.state ∧ l.copy = before.copy ∧ l.stage = before.stage ∧ l.settle = before.settle := by
  rcases h with ⟨-, -, -, rfl⟩ | ⟨b, -, -, -, rfl, -⟩ | ⟨b, -, -, -, rfl, -⟩ <;> exact ⟨rfl, rfl, rfl, rfl⟩

theorem stageWord_of_copy {l k : Line} (h : l.copy = k.copy) (w : Fin 38) : l.stageWord w = k.stageWord w := by
  unfold Line.stageWord
  rw [h]

end Accounted

/-- An accounted sample of an open stage. -/
theorem Sampled.of_accountedAs {n : LineNo} {x : Sample} {l k : Line} {reports : List Report} {requests : List LinkArrival}
    {post : List Act} (hseq : (s.line n).lastSampleSeq ≠ some x.seq) (hacc : accountedAs n (s.line n) x l reports requests)
    (hopen : (s.line n).state.flowing = true ∨ (s.line n).state.idleBound = true)
    (hchecks : sampleChecks n l x s.clock = (k, post))
    (hfits : ∃ A : List Addr, s.room A.length ∧ ∀ p ∈ measured n l x ++ postsOf post, p.addr ∈ A) :
    ∃ pre, Sampled s n x l k pre post ∧ arrivalsOf pre = requests ∧ reportsOf pre = reports := by
  obtain ⟨pre, hmeter, harr, hrep, hobs, hposts, hof⟩ := meterStep_of_accountedAs n _ x l reports requests hacc hopen
  exact ⟨pre, ⟨hseq, hmeter, hof, hposts, hobs, hchecks, hfits⟩, harr, hrep⟩

/-- SAMPLE of an open stage (R94 to R101). -/
theorem exec_sample_of_accountedAs {n : LineNo} {x : Sample} {rest : List Sample} {l k : Line} {reports : List Report}
    {requests : List LinkArrival} {post : List Act} (hready : sampleReady s n x rest)
    (hseq : (s.line n).lastSampleSeq ≠ some x.seq) (hacc : accountedAs n (s.line n) x l reports requests)
    (hopen : (s.line n).state.flowing = true ∨ (s.line n).state.idleBound = true)
    (hchecks : sampleChecks n l x s.clock = (k, post))
    (hfits : ∃ A : List Addr, s.room A.length ∧ ∀ p ∈ measured n l x ++ postsOf post, p.addr ∈ A) :
    exec (.sample n) s =
      .next (State.postAll
        { s with
          links := s.links.set n
            { s.link n with fifo := rest, arrivals := (s.link n).arrivals ++ requests ++ arrivalsOf post }
          lines := s.lines.set n k
          report := { s.report with handed := s.report.handed ++ reports ++ reportsOf post }
          observations := s.observations ++ observationsOf post }
        (measured n l x ++ postsOf post)) := by
  obtain ⟨pre, h, rfl, rfl⟩ := Sampled.of_accountedAs hseq hacc hopen hchecks hfits
  exact h.exec hready

/-- The addresses of the posts themselves are places enough. -/
theorem fits_of_posts {ps : List Post} (h : s.room ps.length) :
    ∃ A : List Addr, s.room A.length ∧ ∀ p ∈ ps, p.addr ∈ A :=
  ⟨ps.map Post.addr, by rwa [List.length_map], fun _ hp => List.mem_map_of_mem hp⟩

theorem length_measured (n : LineNo) (l : Line) (x : Sample) :
    (measured n l x).length = if l.state = .closing then 13 else 12 := by
  unfold measured dwellWord
  split <;> rfl

/-- The posts of a sample are at fifteen words of its line. -/
theorem fits_of_sample {n : LineNo} {l : Line} {x : Sample} {now : Long} (h : s.room 15) :
    ∃ A : List Addr, s.room A.length ∧ ∀ p ∈ measured n l x ++ postsOf (sampleChecks n l x now).2, p.addr ∈ A := by
  refine ⟨sampleAddrs n, h, fun p hp => ?_⟩
  rcases List.mem_append.mp hp with hp | hp
  · rw [← (measurementPosts_postsOf n l x).1] at hp
    have hp := mem_postsOf.mp hp
    exact (measurementPosts_acts n l x _ hp).2 p rfl
  · have haddr := (sampleChecks_acts n l x now _ (mem_postsOf.mp hp)).2 p rfl
    unfold sampleAddrs
    simp only [List.mem_cons, List.not_mem_nil, or_false] at haddr
    rcases haddr with h | h | h | h <;> rw [h] <;> exact List.mem_map_of_mem (by decide)

/-! ### O30: samples outside an open stage -/

theorem meterStep_of_closed {n : LineNo} {l : Line} {x : Sample} (h : l.state = .vacant ∨ l.state = .binding) :
    meterStep n l x = (l, []) := by
  unfold meterStep
  rcases h with h | h <;> rw [h]

theorem meterStep_of_over {n : LineNo} {l : Line} {x : Sample} (h : l.state = .ended ∨ l.state = .tripped) :
    meterStep n l x = ({ l with meterBaseline := some x.meter }, []) := by
  unfold meterStep
  rcases h with h | h <;> rw [h]

/-- A sample that is only posted. -/
theorem exec_sample_of_closed {n : LineNo} {x : Sample} {rest : List Sample} {l : Line} (hready : sampleReady s n x rest)
    (hroom : s.room 12) (hseq : (s.line n).lastSampleSeq ≠ some x.seq)
    (hmeter : meterStep n (afterStep1 (s.line n) x) x = (l, []))
    (hstate : l.state = .vacant ∨ l.state = .binding ∨ l.state = .ended ∨ l.state = .tripped) :
    exec (.sample n) s =
      .next (State.postAll
        { s with links := s.links.set n { s.link n with fifo := rest }, lines := s.lines.set n l } (measured n l x)) := by
  have hnot : ¬ l.state = .closing := by rcases hstate with h | h | h | h <;> rw [h] <;> decide
  have h : Sampled s n x l l [] [] :=
    { seq := hseq, meter := hmeter, ofLine := nofun, posts := rfl, observes := rfl
      checks := sampleChecks_of_closed hstate n x s.clock
      fits := fits_of_posts (by
        rw [show postsOf [] = [] from rfl, List.append_nil, length_measured, if_neg hnot]
        exact hroom) }
  rw [h.exec hready]
  simp [arrivalsOf, reportsOf, observationsOf, postsOf]

theorem State.handleSample_of_duplicate {n : LineNo} {x : Sample} (h : (s.line n).lastSampleSeq = some x.seq) :
    s.handleSample n x = s := if_pos h

/-- An overrun is reported and cleared at the take of a sample (R137). -/
theorem State.reportOverrun_of_some {n : LineNo} {c : Byte} (h : (s.link n).overrun = some c) :
    s.reportOverrun n =
      { s with
        links := s.links.set n { s.link n with overrun := none }
        report := s.reported (linkReported s n .linkError 4 (longOf (c.setWidth 16) 0) 0)
        freeCount := s.freeCount + 1 } := by
  unfold State.reportOverrun
  rw [h]
  rfl

/-- Settles O30. -/
theorem aSampleOutsideAnOpenStageIsPosted : Obligations.ASampleOutsideAnOpenStageIsPosted := by
  unfold Obligations.ASampleOutsideAnOpenStageIsPosted
  refine ⟨fun n x rest s hready hroom => ⟨fun hdup => ?_, fun hseq hstate => ?_, fun hseq hstate => ?_⟩,
    fun n x rest c s hb hfifo hover hrestart hdup => ?_⟩
  · rw [exec_sample_of_ready hready, State.handleSample_of_duplicate (s := s.setLink n _) hdup]
    rfl
  · refine exec_sample_of_closed hready hroom hseq (meterStep_of_closed hstate) ?_
    exact hstate.elim .inl fun h => .inr (.inl h)
  · exact exec_sample_of_closed hready hroom hseq (meterStep_of_over hstate) (.inr (.inr hstate))
  · have hover' : ((s.setLink n { s.link n with fifo := rest }).link n).overrun = some c := by
      rw [State.link_setLink_same]
      exact hover
    rw [exec_sample_of_head hb hfifo hrestart, State.reportOverrun_of_some hover', State.link_setLink_same,
      State.handleSample_of_duplicate]
    · unfold State.setLink
      rw [Vector.set_set]
      rfl
    · exact hdup

end Sys2Proof.Machine
end
-- ==== Sys2Proof/Proofs/OpenStageSamples.lean ====
section
/-! PROOFS. SAMPLE of an open stage (O31 to O33), from the accounting and the checks. -/

namespace Sys2Proof.Machine

variable {s : State}

/-! ### O31: an accounted sample that moves nothing -/

theorem toNat_ofNat_min (w m k : Nat) (h : m < 2 ^ w) : (BitVec.ofNat w (min m k)).toNat = min m k :=
  BitVec.toNat_ofNat _ _ ▸ Nat.mod_eq_of_lt (Nat.lt_of_le_of_lt (Nat.min_le_left m k) h)

/-- The formulas of R97. -/
theorem Line.addVolume_eq (l : Line) (d : Word) {volume take ceiling : Nat}
    (hvolume : volume = min 4294967295 (l.volume.toNat + d.toNat))
    (htake : take = min 65535 (volume / ((l.stageWord 2).toNat - (l.stageWord 1).toNat)))
    (hceiling : ceiling = (if take = 0 then (l.stageWord 3).toNat
      else min (l.stageWord 3).toNat (((l.stageWord 10).toNat + 65536 * (l.stageWord 11).toNat) / take))) :
    l.addVolume d =
      { l with
        volume := BitVec.ofNat 32 volume
        take := BitVec.ofNat 16 take
        intensityCeiling := BitVec.ofNat 16 ceiling
        effectiveCeiling := if l.ceilingRequest ≤ BitVec.ofNat 16 ceiling
          then l.ceilingRequest else BitVec.ofNat 16 ceiling } := by
  have hvol : (BitVec.ofNat 32 volume).toNat = volume := hvolume ▸ toNat_ofNat_min 32 _ _ (by decide)
  have htak : (BitVec.ofNat 16 take).toNat = take := htake ▸ toNat_ofNat_min 16 _ _ (by decide)
  have hzero : BitVec.ofNat 16 take = 0 ↔ take = 0 := by
    rw [← BitVec.toNat_inj, htak]
    rfl
  have hint : l.intensityAt (BitVec.ofNat 16 take) = BitVec.ofNat 16 ceiling := by
    unfold Line.intensityAt
    rw [htak, hceiling]
    by_cases h0 : take = 0
    · rw [if_pos (hzero.mpr h0), if_pos h0]
      exact (BitVec.ofNat_toNat 16 (l.stageWord 3)).symm ▸ (BitVec.setWidth_eq _).symm
    · rw [if_neg (hzero.not.mpr h0), if_neg h0]
      rfl
  have htakeWord : BitVec.ofNat 16 (min 65535 ((BitVec.ofNat 32 volume).toNat / l.length)) = BitVec.ofNat 16 take := by
    rw [hvol, htake]
    rfl
  unfold Line.addVolume
  dsimp only
  rw [← hvolume, htakeWord, hint]
  rfl

/-- The checks of a sample that moves nothing. -/
theorem sampleChecks_of_still {n : LineNo} {x : Sample} {l k : Line} {now : Long}
    (h : l.state.flowing = true ∧ tripCheck k x = none ∧ holdCheck k = none ∧ k = l.withPair x ∧
          l.take < l.stageWord 12 ∧ l.stageWord 5 ≤ l.intensityCeiling ∧
          (l.state = .injecting ∧ ¬ (l.stageWord 5 ≤ x.pressure ∧ x.flow ≤ l.stageWord 6) ∨
            l.state = .closing ∧ l.stageWord 5 ≤ x.pressure ∧ x.flow ≤ l.stageWord 6) ∨
        l.state.idleBound = true ∧ tripCheck l x = none ∧ l.settle ≠ .stopped ∧ k = l) :
    sampleChecks n l x now = (k, []) := by
  rcases h with ⟨hflow, htrip, hhold, rfl, hcap, hint, hstate⟩ | ⟨hidle, htrip, hsettle, rfl⟩
  · rw [sampleChecks_of_flowing n l x now hflow, ← Line.withPair_eq,
      flowingChecks_of_open htrip hhold hcap hint]
    rcases hstate with ⟨hst, hno⟩ | ⟨hst, hyes⟩
    · exact refusalCheck_of_injecting (l := l.withPair x) hst (refusalCondition_iff.not.mpr hno)
    · exact refusalCheck_of_closing_held (l := l.withPair x) hst (refusalCondition_iff.mpr hyes)
  · rw [sampleChecks_of_idleBound n _ x now hidle, boundChecks_of_none htrip, idleChecks_of_settling hsettle]

/-- Settles O31. -/
theorem aSampleWhileInjectingIsAccounted : Obligations.ASampleWhileInjectingIsAccounted := by
  unfold Obligations.ASampleWhileInjectingIsAccounted
  refine ⟨fun l d volume take ceiling hv ht hc => l.addVolume_eq d hv ht hc,
    fun n x rest l k reports requests s hready hroom hseq hacc hstill => ?_⟩
  obtain ⟨hstate, -, -, -⟩ := accountedAs_kept hacc
  have hopen : (s.line n).state.flowing = true ∨ (s.line n).state.idleBound = true := hstill.imp And.left And.left
  have hchecks : sampleChecks n l x s.clock = (k, []) := sampleChecks_of_still (by rwa [hstate])
  rw [exec_sample_of_accountedAs hready hseq hacc hopen hchecks]
  · simp [arrivalsOf, reportsOf, observationsOf, postsOf]
  · refine fits_of_posts ?_
    rw [show postsOf [] = [] from rfl, List.append_nil, length_measured, hstate]
    exact hroom

/-! ### O32: a trip of an idle line -/

/-- Settles O32. -/
theorem anOverpressureTripsAnIdleLine : Obligations.AnOverpressureTripsAnIdleLine := by
  unfold Obligations.AnOverpressureTripsAnIdleLine
  intro n x rest l reports s hready hroom hseq hstate hacc hover
  obtain ⟨hlstate, hcopy, -, -⟩ := accountedAs_kept hacc
  have hidle : l.state = .bound ∨ l.state = .holding := by rwa [hlstate]
  rw [← stageWord_of_copy hcopy 3, ← stageWord_of_copy hcopy 4] at hover ⊢
  have hchecks := (sampleChecks_of_idleBound n l x s.clock ((LineState.idleBound_iff _).mpr hidle)).trans
    ((boundChecks_of_trip (tripCheck_of_over hover)).trans (congrArg moveActs (tripMove_of_idleBound hidle n _ _ _ _)))
  rw [exec_sample_of_accountedAs hready hseq hacc (.inr ((LineState.idleBound_iff _).mpr hstate)) hchecks]
  · simp only [arrivalsOf, reportsOf, observationsOf, postsOf, postLine, List.cons_append, List.nil_append,
      List.filterMap_cons, List.filterMap_nil, List.append_nil]
    rfl
  · refine fits_of_posts ?_
    have hnot : ¬ l.state = .closing := by rcases hidle with h | h <;> rw [h] <;> decide
    rw [List.length_append, length_measured, if_neg hnot]
    exact hroom

/-! ### O33: all checks -/

/-- STATE by its fields (R58). -/
theorem stateWord_eq (l : Line) :
    stateWord l =
      wordOf
        (match l.stage with
          | some st => BitVec.ofNat 8 st.val
          | none => 0xFF)
        (BitVec.ofNat 8 ((if l.riseFlag then 0x80 else 0) + l.state.code.toNat)) := by
  have hlow : (if l.riseFlag then (0x80 : Byte) else 0) ||| lowByte l.state.code =
      BitVec.ofNat 8 ((if l.riseFlag then 0x80 else 0) + l.state.code.toNat) := by
    cases l.riseFlag <;> cases l.state <;> decide
  unfold stateWord
  rw [hlow]
  cases l.stage <;> rfl

/-- The trip and hold checks of O33, each by its lemma. -/
theorem trip_and_hold_checks (l : Line) (x : Sample) :
    ((l.stageWord 3).toNat + (l.stageWord 4).toNat < x.pressure.toNat →
       tripCheck l x =
         some (.overpressure,
           longOf x.pressure (BitVec.ofNat 16 ((l.stageWord 3).toNat + (l.stageWord 4).toNat)),
           longOf x.flow l.admitted)) ∧
     (x.pressure.toNat ≤ (l.stageWord 3).toNat + (l.stageWord 4).toNat →
       ((l.stageWord 36).getLsbD 0 = true ∧ l.stageWord 15 < x.uplift →
         tripCheck l x = some (.uplift, longOf x.uplift (l.stageWord 15), longOf x.pressure x.flow)) ∧
       ((l.stageWord 36).getLsbD 0 = false ∨ x.uplift ≤ l.stageWord 15 →
         (l.flags.getLsbD 2 = true →
           tripCheck l x =
             some (.driveFault, longOf x.pressure x.flow, longOf (l.flags.setWidth 16) 0)) ∧
         (l.flags.getLsbD 2 = false → (l.state.flowing = false ∨ l.window = []) → tripCheck l x = none) ∧
         ∀ (before after : List (Word × Word)) (pk : Word × Word), l.flags.getLsbD 2 = false →
           l.window = before ++ pk :: after → (∀ q ∈ before, q.1 < pk.1) → (∀ q ∈ after, q.1 ≤ pk.1) →
           l.state.flowing = true →
           tripCheck l x =
             if 4 ≤ l.window.length ∧ 100 ≤ pk.1.toNat ∧
                 x.pressure.toNat * 100 + pk.1.toNat * (l.stageWord 13).toNat ≤ pk.1.toNat * 100 ∧
                 pk.2.toNat * (100 + (l.stageWord 14).toNat) ≤ x.flow.toNat * 100
             then some (.pressureBreak, longOf x.pressure x.flow, longOf pk.1 pk.2) else none)) ∧
     (l.flags.getLsbD 1 = true → holdCheck l = some .localStop) ∧
     (l.flags.getLsbD 1 = false → l.flags.getLsbD 3 = true → holdCheck l = some .packerLeak) ∧
     (l.flags.getLsbD 1 = false → l.flags.getLsbD 3 = false → l.flags.getLsbD 0 = true →
       (l.stageWord 36).getLsbD 2 = true → holdCheck l = some .surfaceLeak) ∧
     (l.flags.getLsbD 1 = false → l.flags.getLsbD 3 = false →
       (l.flags.getLsbD 0 = false ∨ (l.stageWord 36).getLsbD 2 = false) → holdCheck l = none) := by
  refine ⟨tripCheck_of_over, fun hp => ⟨tripCheck_of_uplift hp, fun hu => ⟨fun hd => ?_,
    fun hd hb => tripCheck_of_no_break hp hu hd hb, fun before after pk hd hw hbefore hafter hflow => ?_⟩⟩,
    fun h1 => ?_, fun h1 h3 => ?_, fun h1 h3 h0 hs => ?_, fun h1 h3 h => ?_⟩
  · exact (tripCheck_of_calm hp hu).trans (if_pos hd)
  · refine tripCheck_of_peak hp hu hd ?_ hflow
    rw [hw]
    exact peakPair_of_split before after pk hbefore hafter
  · exact if_pos h1
  · unfold holdCheck
    rw [localStop, h1, packerLeak, h3]
    rfl
  · unfold holdCheck
    rw [localStop, h1, packerLeak, h3, groutReturn, h0, Line.surfaceCheck, hs]
    rfl
  · have hsurface : (groutReturn l.flags && l.surfaceCheck) = false := by
      rcases h with h | h
      · rw [groutReturn, h, Bool.false_and]
      · rw [Line.surfaceCheck, h, Bool.and_false]
    unfold holdCheck
    rw [localStop, h1, packerLeak, h3, hsurface]
    rfl

/-- The dwell posts of a move out of a line, in the statement's form. -/
theorem leaving_eq (n : LineNo) (st : LineState) :
    [postLine n 15 0] ++ dwellPosts n st =
      .post (lineWord n 15 0) :: (if st = .closing then [.post (lineWord n 19 0)] else []) := rfl

/-- The checks of INJECTING and CLOSING in the statement's form. -/
theorem flowing_checks (n : LineNo) (l k : Line) (x : Sample) (now : Long) (leaving : List Act)
    (hstate : l.state = .injecting ∨ l.state = .closing) (hk : k = l.withPair x)
    (hleaving : leaving = .post (lineWord n 15 0) :: (if l.state = .closing then [.post (lineWord n 19 0)] else [])) :
     (∀ c a b, tripCheck k x = some (c, a, b) →
       sampleChecks n l x now =
         ({ k with
             state := .tripped, tripCause := some c, admitted := 0, ramp := .stopped, dwell := .stopped,
             settle := .stopped, holdReason := none },
           leaving ++
             [.post (lineWord n 4 (stateWord { l with state := .tripped })), .post (lineWord n 6 (wordOf 0 c.code)),
               .stop n,
               .hand
                 { kind := .trip, detail := c.code.setWidth 7, line := lineByte n, stage := stageByte l.stage,
                   time := x.arrival, valueA := a, valueB := b }])) ∧
     (tripCheck k x = none →
       (∀ r, holdCheck k = some r →
         sampleChecks n l x now =
           ({ k with
               state := .holding, holdReason := some r, admitted := 0, ramp := .stopped, dwell := .stopped,
               settle := .running (1000 * (l.stageWord 37).toNat), baseline := none, riseFlag := false },
             leaving ++
               [.post (lineWord n 4 (wordOf (stageByte l.stage) 5)), .post (lineWord n 6 (wordOf 0 r.code)),
                 .request n .setpoint,
                 .hand
                   { kind := .holdImposed, detail := r.code.setWidth 7, line := lineByte n,
                     stage := stageByte l.stage, time := x.arrival, valueA := longOf x.pressure x.flow,
                     valueB := longOf (l.flags.setWidth 16) 0 }])) ∧
       (holdCheck k = none →
         (∀ r, (l.stageWord 12 ≤ l.take ∧ r = .volumeCap ∨
             l.take < l.stageWord 12 ∧ l.intensityCeiling < l.stageWord 5 ∧ r = .intensity) →
           sampleChecks n l x now =
             ({ k with
                 state := .ended, endReason := some r, admitted := 0, ramp := .stopped, dwell := .stopped,
                 settle := .stopped },
               leaving ++
                 [.post (lineWord n 4 (stateWord { l with state := .ended })), .post (lineWord n 6 (wordOf 0 r.code)),
                   .stop n, .hand (endedReport n l r now)])) ∧
         (l.take < l.stageWord 12 → l.stageWord 5 ≤ l.intensityCeiling →
           (l.stageWord 5 ≤ x.pressure ∧ x.flow ≤ l.stageWord 6 →
             (l.state = .injecting →
               sampleChecks n l x now =
                 ({ k with state := .closing, dwell := .running (1000 * (l.stageWord 7).toNat) },
                   [.post (lineWord n 19 (l.stageWord 7)),
                     .post (lineWord n 4 (stateWord { l with state := .closing })), .post (lineWord n 6 0)])) ∧
             (l.state = .closing → sampleChecks n l x now = (k, []))) ∧
           (¬ (l.stageWord 5 ≤ x.pressure ∧ x.flow ≤ l.stageWord 6) →
             (l.state = .injecting → sampleChecks n l x now = (k, [])) ∧
             (l.state = .closing →
               sampleChecks n l x now =
                 ({ k with state := .injecting, dwell := .stopped, window := [] },
                   [.post (lineWord n 19 0), .post (lineWord n 4 (stateWord { l with state := .injecting })),
                     .post (lineWord n 6 0)])))))) := by
  have hflow : l.state.flowing = true := (LineState.flowing_iff _).mpr hstate
  have hkflow : k.state.flowing = true := hk ▸ hflow
  have hkstate : k.state = l.state := hk ▸ rfl
  have hmove (posts acts : List Act) : [postLine n 15 0] ++ dwellPosts n k.state ++ posts ++ acts =
      leaving ++ (posts ++ acts) := by
    rw [hkstate, leaving_eq, ← hleaving, List.append_assoc]
  rw [sampleChecks_of_flowing n l x now hflow, ← Line.withPair_eq, ← hk]
  refine ⟨fun c a b htrip => ?_, fun htrip => ⟨fun r hhold => ?_, fun hhold => ⟨fun r hr => ?_, fun hcap hint => ?_⟩⟩⟩
  · rw [flowingChecks_of_trip htrip, tripMove_of_flowing hkflow, moveActs, hmove]
    subst hk
    rfl
  · rw [flowingChecks_of_hold htrip hhold, holdMove_eq, moveActs, hmove]
    subst hk
    rfl
  · have hr' : k.stageWord 12 ≤ k.take ∧ r = .volumeCap ∨
        k.take < k.stageWord 12 ∧ k.intensityCeiling < k.stageWord 5 ∧ r = .intensity := by
      subst hk
      exact hr
    rw [flowingChecks_of_end htrip hhold hr', endMove_of_flowing hkflow, moveActs, hmove]
    subst hk
    rfl
  · have hopen : flowingChecks n k x now = refusalCheck n k x := by
      subst hk
      exact flowingChecks_of_open htrip hhold hcap hint
    have hcond : refusalCondition k x = true ↔ l.stageWord 5 ≤ x.pressure ∧ x.flow ≤ l.stageWord 6 := by
      subst hk
      exact refusalCondition_iff
    rw [hopen]
    refine ⟨fun hyes => ⟨fun hst => ?_, fun hst => ?_⟩, fun hno => ⟨fun hst => ?_, fun hst => ?_⟩⟩
    · rw [refusalCheck_of_refusal (hkstate.trans hst) (hcond.mpr hyes)]
      subst hk
      rfl
    · exact refusalCheck_of_closing_held (hkstate.trans hst) (hcond.mpr hyes)
    · exact refusalCheck_of_injecting (hkstate.trans hst) (hcond.not.mpr hno)
    · rw [refusalCheck_of_closing_lost (hkstate.trans hst) (hcond.not.mpr hno)]
      subst hk
      rfl

/-- Settles O33. -/
theorem theChecksOfASampleDecideInOrder : Obligations.TheChecksOfASampleDecideInOrder := by
  unfold Obligations.TheChecksOfASampleDecideInOrder
  refine ⟨stateWord_eq, by decide, by decide, by decide, by decide, trip_and_hold_checks, flowing_checks,
    fun n l x now => ⟨fun h => sampleChecks_of_closed h n x now, fun c a b hidle htrip => ?_⟩,
    fun n l x now base st hidle htrip hstage => ?_,
    fun n x rest l k acts reports requests s hready hroom hseq hopen hacc hchecks => ?_⟩
  · exact (sampleChecks_of_idleBound n l x now ((LineState.idleBound_iff _).mpr hidle)).trans
      ((boundChecks_of_trip htrip).trans (congrArg moveActs (tripMove_of_idleBound hidle n _ _ _ _)))
  · rw [sampleChecks_of_idleBound n l x now ((LineState.idleBound_iff _).mpr hidle), boundChecks_of_none htrip]
    exact ⟨idleChecks_of_settling, fun hsettle hbase => ⟨idleChecks_of_quiet hsettle hbase,
      fun back hrise ho => idleChecks_of_observed hsettle hbase hstage hrise ho⟩⟩
  · refine exec_sample_of_accountedAs hready hseq hacc hopen hchecks ?_
    have hfits := fits_of_sample (n := n) (l := l) (x := x) (now := s.clock) hroom
    rwa [hchecks] at hfits

end Sys2Proof.Machine
end
-- ==== Sys2Proof/Proofs/LineEvents.lean ====
section
/-! PROOFS. The timers of a line, and the events that trip or hold it (O34 to O36). -/

namespace Sys2Proof.Machine

variable {s : State}

theorem State.setLine_setLine (s : State) (n : LineNo) (l l' : Line) : (s.setLine n l).setLine n l' = s.setLine n l' := by
  unfold State.setLine
  simp only [Vector.set_set]

/-! ### Timers (R79, R105, R123) -/

/-- The line after a ramp expiry. -/
theorem Line.rampUp_eq {l : Line} {a : Word}
    (ha : a.toNat = min (l.admitted.toNat + (l.stageWord 9).toNat) l.flowTarget.toNat) :
    l.rampUp = { l with admitted := a, ramp := .stopped } := by
  have hlt : min (l.admitted.toNat + (l.stageWord 9).toNat) l.flowTarget.toNat < 2 ^ 16 :=
    Nat.lt_of_le_of_lt (Nat.min_le_right ..) l.flowTarget.isLt
  have hword : BitVec.ofNat 16 (min (l.admitted.toNat + (l.stageWord 9).toNat) l.flowTarget.toNat) = a := by
    rw [← ha] at hlt ⊢
    exact BitVec.eq_of_toNat_eq (by rw [BitVec.toNat_ofNat, Nat.mod_eq_of_lt hlt])
  unfold Line.rampUp
  exact congrArg (fun w => { l with admitted := w, ramp := .stopped }) hword

/-- A ramp expiry that its free supervisor takes. -/
theorem exec_rampExpiry {n : LineNo} {a : Word} (hb : s.busy (.line n) = false)
    (hstate : (s.line n).state = .injecting ∨ (s.line n).state = .closing) (hramp : (s.line n).ramp = .running 0)
    (ha : a.toNat = min ((s.line n).admitted.toNat + ((s.line n).stageWord 9).toNat) (s.line n).flowTarget.toNat) :
    exec (.rampExpiry n) s =
      .next (s.takeMove n ({ s.line n with admitted := a, ramp := .stopped }, [postLine n 15 a],
        [.request n .setpoint, .restartRamp n])) := by
  have hflow : (s.line n).state.flowing = true := (LineState.flowing_iff _).mpr hstate
  have hcond : ¬ (s.busy (.line n) || !(s.line n).ramp.due || !(s.line n).state.flowing) = true := by
    rw [hb, hramp, hflow]
    decide
  refine congrArg Host.Outcome.next ((if_neg hcond).trans ?_)
  rw [Line.rampUp_eq ha]

theorem exec_dwellExpiry {n : LineNo} (hb : s.busy (.line n) = false) (hstate : (s.line n).state = .closing)
    (hdwell : (s.line n).dwell = .running 0) :
    exec (.dwellExpiry n) s = .next (s.takeMove n (endMove n (s.line n) .refusal s.clock)) := by
  have hcond : ¬ (s.busy (.line n) || !(s.line n).dwell.due || (s.line n).state != .closing) = true := by
    rw [hb, hdwell, hstate]
    decide
  exact congrArg Host.Outcome.next (if_neg hcond)

theorem exec_settleExpiry {n : LineNo} (hb : s.busy (.line n) = false)
    (hstate : (s.line n).state = .bound ∨ (s.line n).state = .holding) (hsettle : (s.line n).settle = .running 0) :
    exec (.settleExpiry n) s = .next (s.setLine n { s.line n with settle := .stopped }) := by
  have hcond : ¬ (s.busy (.line n) || !(s.line n).settle.due || !(s.line n).state.idleBound) = true := by
    rw [hb, hsettle, (LineState.idleBound_iff _).mpr hstate]
    decide
  exact congrArg Host.Outcome.next (if_neg hcond)

/-- A post of a move that finds no place leaves the rest of the move to come after it (R26). -/
theorem State.takeMove_of_full {n : LineNo} {l : Line} {p : Post} {acts : List Act} (hfull : s.queue.length = 16)
    (hq : queued s.queue p.addr = false) (hc : ∀ w v r b, s.cycle ≠ .answered w v r b) :
    s.takeMove n (l, [.post p], acts) = { s.setLine n l with waiting := s.waiting ++ [⟨.line n, p, acts, none⟩] } := by
  unfold State.takeMove
  change State.react (State.operate (s.setLine n l) (.line n) (.post p :: acts) none) = _
  unfold State.operate
  rw [State.runActs_of_full (s := s.setLine n l) _ _ _ hfull hq]
  exact State.react_of_not_answered hc

/-- Settles O34. -/
theorem theTimersOfALineExpire : Obligations.TheTimersOfALineExpire := by
  unfold Obligations.TheTimersOfALineExpire
  refine ⟨fun n a s hb hroom hc hstate hramp ha => ?_, fun n a s hb hc hfull hq hstate hramp ha => ?_,
    fun n s => rfl, fun n s hb hc => ⟨fun hstate hdwell hroom => ?_, fun hstate hsettle => ?_⟩⟩
  · have hflow : (s.line n).state.flowing = true := (LineState.flowing_iff _).mpr hstate
    have hrestart : ({ s.line n with admitted := a, ramp := .stopped } : Line).restartRamp =
        { s.line n with
          admitted := a
          ramp := if a.toNat < (s.line n).flowTarget.toNat then .running 1000 else .stopped } := by
      unfold Line.restartRamp
      refine congrArg (fun t => { s.line n with admitted := a, ramp := t }) ?_
      exact if_congr ⟨fun h => h.2, fun h => ⟨hflow, h⟩⟩ rfl rfl
    rw [exec_rampExpiry hb hstate hramp ha]
    refine congrArg _ ((State.takeMove_eq n _ [postLine n 15 a] [.request n .setpoint, .restartRamp n] rfl rfl rfl hroom hc).trans ?_)
    simp only [List.foldl_cons, List.foldl_nil]
    have hline : ((s.setLine n { s.line n with admitted := a, ramp := .stopped }).perform (.request n .setpoint)).line n =
        { s.line n with admitted := a, ramp := .stopped } := State.line_setLine_same _ _ _
    change State.postAll (State.setLine _ n (State.line _ n).restartRamp) _ = _
    rw [hline, hrestart]
    simp only [State.perform, State.arrive, State.setLine, State.setLink, State.link, Vector.set_set]
    rfl
  · rw [exec_rampExpiry hb hstate hramp ha]
    exact congrArg _ (State.takeMove_of_full hfull hq hc)
  · rw [exec_dwellExpiry hb hstate hdwell, endMove_eq]
    have hleaving : (leavingWords n (s.line n).state (stateWord (endedLine (s.line n) .refusal))
        (wordOf 0 EndReason.refusal.code)).length = 4 := by
      rw [length_leavingWords, hstate]
      rfl
    refine congrArg _ ((State.takeMove_eq n _ _ _ (othersOf_leaving n _ _) (by rfl) (by rfl) ?_ (by exact hc)).trans ?_)
    · rw [postsOf_leaving]
      exact hleaving ▸ hroom
    · rw [postsOf_leaving]
      unfold leavingWords
      rw [hstate]
      rfl
  · rw [exec_settleExpiry hb hstate hsettle]
    rfl

/-! ### Trips (R115 to R119) -/

/-- A trip of a flowing line on an event, in the statements' form. -/
theorem State.takeMove_trip {n : LineNo} {l : Line} {c : TripCause} (hflow : l.state.flowing = true) (hroom : s.room 4)
    (hc : ∀ w v r b, s.cycle ≠ .answered w v r b) :
    s.takeMove n (eventTrip n l c s.clock) = State.postAll (trippedState s n l c) (trippedPosts n l c) := by
  have hposts : postsOf ([postLine n 15 0] ++ dwellPosts n l.state ++
      [postLine n 4 (stateWord { l with state := .tripped }), postLine n 6 (wordOf 0 c.code)]) = trippedPosts n l c := by
    rw [postsOf_append, postsOf_append, postsOf_dwellPosts]
    rfl
  have hothers : othersOf ([postLine n 15 0] ++ dwellPosts n l.state ++
      [postLine n 4 (stateWord { l with state := .tripped }), postLine n 6 (wordOf 0 c.code)]) = [] := by
    rw [othersOf_append, othersOf_append, othersOf_dwellPosts]
    rfl
  have hlen : (trippedPosts n l c).length ≤ 4 := by
    unfold trippedPosts
    split <;> simp
  unfold eventTrip
  rw [tripMove_of_flowing hflow]
  refine (State.takeMove_eq n _ _ _ hothers (by rfl) (by rfl) ?_ (by exact hc)).trans ?_
  · rw [hposts]
    exact Nat.le_trans (Nat.add_le_add_left hlen _) hroom
  · rw [hposts]
    rfl

/-- A hold of a flowing line on an event, in the statements' form. -/
theorem State.takeMove_hold {n : LineNo} {l : Line} {r : HoldReason} {a b : Long} (hroom : s.room 4)
    (hc : ∀ w v r b, s.cycle ≠ .answered w v r b) :
    s.takeMove n (holdMove n l r s.clock a b) = State.postAll (heldState s n l r a b) (heldPosts n l r) := by
  have hposts : postsOf ([postLine n 15 0] ++ dwellPosts n l.state ++
      [postLine n 4 (wordOf (stageByte l.stage) 5), postLine n 6 (wordOf 0 r.code)]) = heldPosts n l r := by
    rw [postsOf_append, postsOf_append, postsOf_dwellPosts]
    rfl
  have hothers : othersOf ([postLine n 15 0] ++ dwellPosts n l.state ++
      [postLine n 4 (wordOf (stageByte l.stage) 5), postLine n 6 (wordOf 0 r.code)]) = [] := by
    rw [othersOf_append, othersOf_append, othersOf_dwellPosts]
    rfl
  have hlen : (heldPosts n l r).length ≤ 4 := by
    unfold heldPosts
    split <;> simp
  rw [holdMove_eq]
  refine (State.takeMove_eq n _ _ _ hothers (by rfl) (by rfl) ?_ (by exact hc)).trans ?_
  · rw [hposts]
    exact Nat.le_trans (Nat.add_le_add_left hlen _) hroom
  · rw [hposts]
    rfl

theorem trippedState_setLine (s : State) (n : LineNo) (k l : Line) (c : TripCause) :
    trippedState (s.setLine n k) n l c = trippedState s n l c := by
  unfold trippedState State.setLine
  simp only [Vector.set_set]
  rfl

theorem heldState_setLine (s : State) (n : LineNo) (k l : Line) (r : HoldReason) (a b : Long) :
    heldState (s.setLine n k) n l r a b = heldState s n l r a b := by
  unfold heldState State.setLine
  simp only [Vector.set_set]
  rfl

/-- The oldest event of the link is taken off the mail. -/
theorem exec_linkStateChange {n : LineNo} {to_ : LinkState} {rest : List LinkEvent} (hb : s.busy (.line n) = false)
    (hmail : (s.line n).mail.linkEvents = .stateChange to_ :: rest) :
    exec (.linkStateChange n) s =
      .next (State.takeLinkState
        (s.setLine n { s.line n with mail := { (s.line n).mail with linkEvents := rest } }) n to_) := by
  simp only [exec, execLinkStateChange, hb, hmail]
  rfl

theorem exec_unansweredCommand {n : LineNo} {count : Byte} {rest : List LinkEvent} (hb : s.busy (.line n) = false)
    (hmail : (s.line n).mail.linkEvents = .unanswered count :: rest) :
    exec (.unansweredCommand n) s =
      .next (State.takeUnanswered
        (s.setLine n { s.line n with mail := { (s.line n).mail with linkEvents := rest } }) n count) := by
  simp only [exec, execUnansweredCommand, hb, hmail]
  rfl

theorem exec_refusedLocal {n : LineNo} {echo : Byte} {rest : List LinkEvent} (hb : s.busy (.line n) = false)
    (hmail : (s.line n).mail.linkEvents = .refusedLocal echo :: rest) :
    exec (.refusedLocal n) s =
      .next (State.takeRefusedLocal
        (s.setLine n { s.line n with mail := { (s.line n).mail with linkEvents := rest } }) n echo) := by
  simp only [exec, execRefusedLocal, hb, hmail]
  rfl

theorem exec_plantStopEvent {n : LineNo} {c : PlantCause} {stops : List PlantCause} (hb : s.busy (.line n) = false)
    (hmail : (s.line n).mail.plantStops = c :: stops) :
    exec (.plantStopEvent n c) s =
      .next (State.takePlantStop
        (s.setLine n { s.line n with mail := { (s.line n).mail with plantStops := stops } }) n c) := by
  have hx : extractFirst (fun d => d == c) (c :: stops) = some (c, stops) := by simp [extractFirst]
  simp only [exec, execPlantStopEvent, hb, hmail, hx]
  rfl

theorem exec_holdDemand {n : LineNo} {o : Observation} {rest : List Observation} (hb : s.busy (.line n) = false)
    (hmail : (s.line n).mail.demands = o :: rest) :
    exec (.holdDemand n) s =
      .next (State.takeDemand
        (s.setLine n { s.line n with mail := { (s.line n).mail with demands := rest } }) n o) := by
  simp only [exec, execHoldDemand, hb, hmail]
  rfl

/-- An event that may trip the line it finds. -/
theorem State.trip_or_not {n : LineNo} {l : Line} {c : TripCause} {p : Prop} [Decidable p] (hroom : s.room 4)
    (hc : ∀ w v r b, s.cycle ≠ .answered w v r b) :
    (¬ p ∨ l.state.flowing = false →
      (if p ∧ l.state.flowing = true then (s.setLine n l).takeMove n (eventTrip n l c s.clock) else s.setLine n l) =
        { s with lines := s.lines.set n l }) ∧
    (p → l.state.flowing = true →
      (if p ∧ l.state.flowing = true then (s.setLine n l).takeMove n (eventTrip n l c s.clock) else s.setLine n l) =
        State.postAll (trippedState s n l c) (trippedPosts n l c)) := by
  refine ⟨fun h => if_neg ?_, fun hp hflow => (if_pos ⟨hp, hflow⟩).trans ?_⟩
  · rintro ⟨hp, hflow⟩
    rcases h with h | h
    · exact h hp
    · rw [h] at hflow
      cases hflow
  · rw [← trippedState_setLine s n l l c]
    exact State.takeMove_trip (s := s.setLine n l) hflow hroom hc

/-- The line after a link state change. -/
theorem Line.takeLinkState_eq (l : Line) (to_ : LinkState) :
    l.takeLinkState to_ =
      { l with
        linkCopy := to_
        lastSampleSeq := if to_ = .off then none else l.lastSampleSeq
        flags := if to_ = .off then 0 else l.flags } := by
  unfold Line.takeLinkState
  by_cases h : to_ = .off
  · rw [if_pos h, if_pos h, if_pos h]
  · rw [if_neg h, if_neg h, if_neg h]

/-- Settles O35. -/
theorem linkAndPlantEventsTripAFlowingLine : Obligations.LinkAndPlantEventsTripAFlowingLine := by
  unfold Obligations.LinkAndPlantEventsTripAFlowingLine
  refine fun n rest l s hb hroom hc => ⟨fun to_ hmail hl => ?_, fun count hmail hl => ?_,
    fun c tc stops hmail hcause hl => ?_⟩
  · have htake : State.takeLinkState (s.setLine n { s.line n with mail := { (s.line n).mail with linkEvents := rest } }) n to_ =
        if to_ = .lost ∧ l.state.flowing = true then (s.setLine n l).takeMove n (eventTrip n l .linkLost s.clock)
        else s.setLine n l := by
      unfold State.takeLinkState
      dsimp only
      rw [State.line_setLine_same, Line.takeLinkState_eq, ← hl, State.setLine_setLine]
      refine if_congr Iff.rfl ?_ rfl
      unfold State.takeMove
      rw [State.setLine_setLine, State.setLine_setLine]
      rfl
    rw [exec_linkStateChange hb hmail, htake]
    obtain ⟨hno, hyes⟩ := State.trip_or_not (l := l) (n := n) (c := .linkLost) (p := to_ = .lost) hroom hc
    exact ⟨fun h => congrArg _ (hno h), fun hp hflow => congrArg _ (hyes hp hflow)⟩
  · rw [exec_unansweredCommand hb hmail, ← hl]
    have htake : State.takeUnanswered (s.setLine n l) n count =
        if 2 ≤ count.toNat ∧ l.state.flowing = true then (s.setLine n l).takeMove n (eventTrip n l .commandLost s.clock)
        else s.setLine n l := by
      unfold State.takeUnanswered
      dsimp only
      rw [State.line_setLine_same]
      rfl
    rw [htake]
    obtain ⟨hno, hyes⟩ := State.trip_or_not (l := l) (n := n) (c := .commandLost) (p := 2 ≤ count.toNat) hroom hc
    exact ⟨fun h => congrArg _ (hno (h.imp_left Nat.not_le.mpr)), fun hp hflow => congrArg _ (hyes hp hflow)⟩
  · rw [exec_plantStopEvent hb hmail, ← hl]
    have htake : State.takePlantStop (s.setLine n l) n c =
        if True ∧ l.state.flowing = true then (s.setLine n l).takeMove n (eventTrip n l tc s.clock)
        else s.setLine n l := by
      unfold State.takePlantStop
      dsimp only
      rw [State.line_setLine_same]
      rcases hcause with ⟨rfl, rfl⟩ | ⟨rfl, rfl⟩ <;> exact if_congr ⟨fun h => ⟨trivial, h⟩, And.right⟩ rfl rfl
    rw [htake]
    obtain ⟨hno, hyes⟩ := State.trip_or_not (l := l) (n := n) (c := tc) (p := True) hroom hc
    exact ⟨fun h => congrArg _ (hno (.inr h)), fun hflow => congrArg _ (hyes trivial hflow)⟩

/-! ### Holds (R121, R128) -/

/-- An event that may hold the line it finds. -/
theorem State.hold_or_not {n : LineNo} {l : Line} {r : HoldReason} {a b : Long} (hroom : s.room 4)
    (hc : ∀ w v r b, s.cycle ≠ .answered w v r b) :
    (l.state.flowing = false →
      (if l.state.flowing = true then (s.setLine n l).takeMove n (holdMove n l r s.clock a b) else s.setLine n l) =
        { s with lines := s.lines.set n l }) ∧
    (l.state.flowing = true →
      (if l.state.flowing = true then (s.setLine n l).takeMove n (holdMove n l r s.clock a b) else s.setLine n l) =
        State.postAll (heldState s n l r a b) (heldPosts n l r)) := by
  refine ⟨fun h => if_neg (by rw [h]; decide), fun h => (if_pos h).trans ?_⟩
  rw [← heldState_setLine s n l l r a b]
  exact State.takeMove_hold (s := s.setLine n l) hroom hc

/-- Settles O36. -/
theorem localRefusalAndDemandHoldAFlowingLine : Obligations.LocalRefusalAndDemandHoldAFlowingLine := by
  unfold Obligations.LocalRefusalAndDemandHoldAFlowingLine
  refine fun n l s hb hroom hc => ⟨fun echo rest hmail hl => ?_, fun o rest hmail hl => ?_⟩
  · rw [exec_refusedLocal hb hmail, ← hl]
    unfold State.takeRefusedLocal
    dsimp only
    rw [State.line_setLine_same]
    obtain ⟨hno, hyes⟩ := State.hold_or_not (l := l) (n := n) (r := .localStop) (a := longOf (echo.setWidth 16) 0)
      (b := longOf (l.flags.setWidth 16) 1) hroom hc
    exact ⟨fun h => congrArg _ (hno h), fun h => congrArg _ (hyes h)⟩
  · rw [exec_holdDemand hb hmail, ← hl]
    unfold State.takeDemand
    dsimp only
    rw [State.line_setLine_same]
    obtain ⟨hno, hyes⟩ := State.hold_or_not (l := l) (n := n) (r := .communication) (a := o.value)
      (b := longOf (l.flags.setWidth 16) 2) hroom hc
    exact ⟨fun h => congrArg _ (hno h), fun h => congrArg _ (hyes h)⟩

end Sys2Proof.Machine
end
-- ==== Sys2Proof/Proofs/Observations.lean ====
section
/-! PROOFS. The Communication Monitor (O37): its demands, by induction on the lines it goes through. -/

namespace Sys2Proof.Machine

variable {s : State}

/-! ### Which lines qualify (R126) -/

theorem Line.listsNeighbour_iff (l : Line) (st : StageNo) :
    l.listsNeighbour st = true ↔
      ∃ k : Fin 38, 19 ≤ k.val ∧ k.val ≤ 22 ∧ k.val ≤ 18 + (l.stageWord 18).toNat ∧
        l.stageWord k = BitVec.ofNat 16 st.val := by
  unfold Line.listsNeighbour
  simp only [Bool.or_eq_true, Bool.and_eq_true, decide_eq_true_eq, beq_iff_eq]
  constructor
  · rintro (((⟨h, hw⟩ | ⟨h, hw⟩) | ⟨h, hw⟩) | ⟨h, hw⟩)
    · exact ⟨19, by decide, by decide, Nat.add_le_add_left h 18, hw⟩
    · exact ⟨20, by decide, by decide, Nat.add_le_add_left h 18, hw⟩
    · exact ⟨21, by decide, by decide, Nat.add_le_add_left h 18, hw⟩
    · exact ⟨22, by decide, by decide, Nat.add_le_add_left h 18, hw⟩
  · rintro ⟨⟨k, hk⟩, hlow, hhigh, hcount, hw⟩
    dsimp only at hlow hhigh hcount
    interval_cases k
    · exact .inl (.inl (.inl ⟨by omega, hw⟩))
    · exact .inl (.inl (.inr ⟨by omega, hw⟩))
    · exact .inl (.inr ⟨by omega, hw⟩)
    · exact .inr ⟨by omega, hw⟩

theorem Line.qualifies_iff (l : Line) (st : StageNo) :
    l.qualifies st = true ↔
      (l.state = .injecting ∨ l.state = .closing) ∧ (l.stageWord 36).getLsbD 1 = true ∧
        ∃ k : Fin 38, 19 ≤ k.val ∧ k.val ≤ 22 ∧ k.val ≤ 18 + (l.stageWord 18).toNat ∧
          l.stageWord k = BitVec.ofNat 16 st.val := by
  unfold Line.qualifies
  rw [Bool.and_eq_true, Bool.and_eq_true, and_assoc, LineState.flowing_iff, Line.listsNeighbour_iff]
  rfl

/-! ### One line, and all of them -/

/-- The line with an observation demanded of it, where it qualifies. -/
def Line.demanded (l : Line) (o : Observation) : Line :=
  if l.qualifies o.stage = true then { l with mail := { l.mail with demands := l.mail.demands ++ [o] } } else l

/-- The reports of the lines that qualify, in order. -/
def demandReports (s : State) (o : Observation) (xs : List LineNo) : List Report :=
  (xs.filter fun x => (s.line x).qualifies o.stage).map fun x => communicationReport x (s.line x) o s.clock

theorem State.line_demandOf_same (s : State) (o : Observation) (x : LineNo) :
    (s.demandOf o x).line x = (s.line x).demanded o := by
  unfold State.demandOf Line.demanded
  by_cases h : (s.line x).qualifies o.stage = true
  · rw [if_pos h, if_pos h]
    exact State.line_setLine_same _ _ _
  · rw [if_neg h, if_neg h]

theorem State.line_demandOf_other (s : State) (o : Observation) {x y : LineNo} (hne : y ≠ x) :
    (s.demandOf o x).line y = s.line y := by
  unfold State.demandOf
  by_cases h : (s.line x).qualifies o.stage = true
  · rw [if_pos h, State.line_setLine, if_neg hne]
    rfl
  · rw [if_neg h]

/-- A demand changes a line and the reports alone. -/
theorem State.demandOf_kept (s : State) (o : Observation) (x : LineNo) :
    s.demandOf o x =
      { s with
        lines := (s.demandOf o x).lines
        report := { s.report with handed := s.report.handed ++ demandReports s o [x] } } := by
  unfold State.demandOf
  by_cases h : (s.line x).qualifies o.stage = true
  · have hreports : demandReports s o [x] = [communicationReport x (s.line x) o s.clock] := by
      simp [demandReports, h]
    rw [if_pos h, hreports]
    rfl
  · have hreports : demandReports s o [x] = [] := by simp [demandReports, h]
    rw [if_neg h, hreports, List.append_nil]

/-- What a monitor that goes through lines does to each. -/
theorem foldl_demandOf (o : Observation) (xs : List LineNo) (s : State) (hnodup : xs.Nodup) :
    xs.foldl (fun t x => t.demandOf o x) s =
        { s with
          lines := (xs.foldl (fun t x => t.demandOf o x) s).lines
          report := { s.report with handed := s.report.handed ++ demandReports s o xs } } ∧
      ∀ y, (xs.foldl (fun t x => t.demandOf o x) s).line y = if y ∈ xs then (s.line y).demanded o else s.line y := by
  induction xs generalizing s with
  | nil => exact ⟨by simp [demandReports], fun y => by simp⟩
  | cons x rest ih =>
    obtain ⟨hx, hrest⟩ := List.nodup_cons.mp hnodup
    obtain ⟨hkept, hlines⟩ := ih (s.demandOf o x) hrest
    have hclock : (s.demandOf o x).clock = s.clock := by rw [State.demandOf_kept]
    have hsame (y : LineNo) (hy : y ∈ rest) : (s.demandOf o x).line y = s.line y :=
      State.line_demandOf_other s o (ne_of_mem_of_not_mem hy hx)
    have hreports : demandReports (s.demandOf o x) o rest = demandReports s o rest := by
      unfold demandReports
      rw [hclock, List.filter_congr fun y hy => by rw [hsame y hy]]
      exact List.map_congr_left fun y hy => by rw [hsame y (List.mem_of_mem_filter hy)]
    have happ : demandReports s o (x :: rest) = demandReports s o [x] ++ demandReports s o rest := by
      unfold demandReports
      rw [← List.map_append, ← List.filter_append]
      rfl
    refine ⟨?_, fun y => ?_⟩
    · rw [List.foldl_cons]
      refine hkept.trans ?_
      rw [hreports, State.demandOf_kept s o x, happ, ← List.append_assoc]
    · rw [List.foldl_cons, hlines]
      by_cases hyx : y = x
      · subst hyx
        rw [if_neg hx, State.line_demandOf_same, if_pos List.mem_cons_self]
      · rw [State.line_demandOf_other s o hyx]
        simp only [List.mem_cons, hyx, false_or]

/-- The oldest observation of a line is taken (R126, log 40). -/
theorem exec_observed {o : Observation} {before rest : List Observation} (hobs : s.observations = before ++ o :: rest)
    (hbefore : ∀ p ∈ before, p.line ≠ o.line) :
    exec (if o.isReturn then .returnObserved o.line else .riseObserved o.line) s =
      .next (State.takeObservation { s with observations := before ++ rest } o) := by
  have hx := extractFirst_append (fun p : Observation => p.line == o.line) before rest o (by simp) (by simpa using hbefore)
  have hobserved : s.observed o.line o.isReturn = State.takeObservation { s with observations := before ++ rest } o := by
    unfold State.observed
    rw [hobs, hx]
    exact if_pos rfl
  rw [← hobserved]
  cases o.isReturn <;> rfl

/-- Settles O37. -/
theorem anObservationDemandsHoldsOfQualifyingLines : Obligations.AnObservationDemandsHoldsOfQualifyingLines := by
  unfold Obligations.AnObservationDemandsHoldsOfQualifyingLines
  refine ⟨Line.qualifies_iff, fun o before rest s hobs hbefore => ⟨_, exec_observed hobs hbefore, ?_, fun x => ?_, ?_⟩⟩
  · unfold State.takeObservation
    have hkept := (foldl_demandOf o allLines { s with observations := before ++ rest } (by decide)).1
    have hreport := congrArg State.report hkept
    dsimp only at hreport
    rw [hreport]
    exact hkept
  · unfold State.takeObservation
    rw [(foldl_demandOf o allLines _ (by decide)).2 x, if_pos (by fin_cases x <;> decide)]
    rfl
  · unfold State.takeObservation
    rw [(foldl_demandOf o allLines _ (by decide)).1]
    rfl

end Sys2Proof.Machine
end
-- ==== Sys2Proof/Proofs/Receiver.lean ====
section
/-! PROOFS. The uplink receiver (O38, O39): the clock watch, the search for a frame, and its characters. -/

namespace Sys2Proof.Machine

variable {s : State}

/-! ### A controller's own reports -/

/-- A report that a controller builds and hands over, after a change of its link. -/
theorem State.setLink_handLink (s : State) (n : LineNo) (k : Link) (kind : ReportKind) (detail : BitVec 7) (a b : Long) :
    (s.setLink n k).handLink n kind detail a b =
      { s with
        links := s.links.set n k
        report := s.reported (linkReported s n kind detail a b)
        freeCount := s.freeCount + 1 } := rfl

/-! ### The clock watch and the search for a frame (R133 to R135) -/

theorem charBits_getD (c : Byte) (k : Nat) (hk : k < 8) : (charBits c).getD k false = c.getLsbD (7 - k) := by
  interval_cases k <;> rfl

theorem exec_clockMissing {n : LineNo} {expiry : Long} (hwatch : (s.link n).watch = .present)
    (hexpiry : (s.link n).watchExpiry = some expiry) :
    exec (.clockMissing n) s = .next (s.takeClockMissing n expiry) := by
  simp only [exec, execClockMissing, hwatch, hexpiry]

theorem exec_uplinkClockEdge {n : LineNo} (hwatch : (s.link n).watch ≠ .stopped) :
    exec (.uplinkClockEdge n) s =
      .next (s.setLink n { s.link n with watch := .present, watchTimer := .running 1, watchExpiry := none }) :=
  congrArg Host.Outcome.next (if_neg hwatch)

theorem exec_syncFound {n : LineNo} (bit : Bool) (hreceiver : (s.link n).receiver = .hunting)
    (hwatch : (s.link n).watch = .present) :
    exec (.syncFound n bit) s = .next (s.setLink n ((s.link n).takeBit (lowByte (s.config.word 2)) bit)) :=
  congrArg Host.Outcome.next (if_pos ⟨hreceiver, hwatch⟩)

/-- The last eight bits taken. -/
theorem huntPush_eq (bits : List Bool) (b : Bool) : huntPush bits b = (bits ++ [b]).drop (bits.length - 7) :=
  congrArg (fun k => (bits ++ [b]).drop k) (Nat.add_sub_add_right bits.length 1 7)

theorem exec_sync1Character {n : LineNo} (c : Byte) (hreceiver : (s.link n).receiver = .sync1) :
    exec (.sync1Character n c) s = .next (s.setLink n ((s.link n).takeSync1 (lowByte (s.config.word 2)) c)) :=
  congrArg Host.Outcome.next (if_pos hreceiver)

/-- A character between two frames is judged (R135). -/
theorem State.takeBetween_of_between {n : LineNo} (c : Byte) (hreceiver : (s.link n).receiver = .between) :
    s.takeBetween n c =
      if c = lowByte (s.config.word 2) then s
      else if c = 0x5A ∨ c = 0x3C then s.setLink n { s.link n with receiver := .frame, assembly := [c] }
      else (s.setLink n (s.link n).hunt).handLink n .linkError 2 (longOf (c.setWidth 16) 0) 0 :=
  if_neg (not_not.mpr hreceiver)

/-- Settles O38. -/
theorem theReceiverWatchesItsClockAndFindsFrames : Obligations.TheReceiverWatchesItsClockAndFindsFrames := by
  unfold Obligations.TheReceiverWatchesItsClockAndFindsFrames
  refine ⟨fun c => ⟨rfl, charBits_getD c⟩, fun n s => ⟨fun expiry hwatch hexpiry => ?_, fun hwatch => ?_⟩,
    fun n s => ⟨fun bit hreceiver hwatch bits hbits => ?_, fun c hreceiver => ⟨fun hc => ?_, fun hc => ?_⟩,
      fun c hreceiver => ⟨fun hc => ?_, fun hc hkind => ?_, fun hc h5A h3C => ?_⟩⟩⟩
  · rw [exec_clockMissing hwatch hexpiry]
    rfl
  · rw [exec_uplinkClockEdge hwatch]
    rfl
  · have htake (h : Link) (hcase : (if bits = charBits (lowByte (s.config.word 2))
          then { s.link n with receiver := .sync1, huntBits := [] } else { s.link n with huntBits := bits }) = h) :
        exec (.syncFound n bit) s = .next (s.setLink n h) := by
      subst hcase hbits
      rw [exec_syncFound bit hreceiver hwatch, ← huntPush_eq]
      rfl
    exact ⟨fun h => htake _ (if_pos h), fun h => htake _ (if_neg h)⟩
  · rw [exec_sync1Character c hreceiver]
    exact congrArg (fun k => Host.Outcome.next (s.setLink n k)) (if_pos hc)
  · rw [exec_sync1Character c hreceiver]
    exact congrArg (fun k => Host.Outcome.next (s.setLink n k)) (if_neg hc)
  · exact congrArg Host.Outcome.next ((State.takeBetween_of_between c hreceiver).trans (if_pos hc))
  · exact congrArg Host.Outcome.next ((State.takeBetween_of_between c hreceiver).trans ((if_neg hc).trans (if_pos hkind)))
  · have hkind : ¬ (c = 0x5A ∨ c = 0x3C) := not_or.mpr ⟨h5A, h3C⟩
    exact congrArg Host.Outcome.next ((State.takeBetween_of_between c hreceiver).trans
      ((if_neg hc).trans ((if_neg hkind).trans (State.setLink_handLink ..))))

/-! ### Frames (R136, R137) -/

theorem Link.assembling_of_frame {k : Link} {kind : Byte} (hreceiver : k.receiver = .frame) (hkind : k.assembly.head? = some kind) :
    ¬ (!k.assembling kind) = true := by
  simp [Link.assembling, hreceiver, hkind]

/-- A character of a SAMPLE frame. -/
theorem exec_sampleFrame {n : LineNo} {c : Byte} {frame : List Byte} (hreceiver : (s.link n).receiver = .frame)
    (hframe : frame = (s.link n).assembly ++ [c]) (hkind : (s.link n).assembly.head? = some 0x5A) :
    exec (.sampleFrame n c) s =
      .next (if frame.length < 13 then s.setLink n { s.link n with assembly := frame }
        else if receivedCrc frame = computedCrc frame then s.deliverSample n (sampleOf frame s.clock)
        else s.badFrame n frame) := by
  subst hframe
  exact congrArg Host.Outcome.next (if_neg (Link.assembling_of_frame hreceiver hkind))

/-- A character of an ANSWER frame. -/
theorem exec_answerFrame {n : LineNo} {c : Byte} {frame : List Byte} (hreceiver : (s.link n).receiver = .frame)
    (hframe : frame = (s.link n).assembly ++ [c]) (hkind : (s.link n).assembly.head? = some 0x3C) :
    exec (.answerFrame n c) s =
      .next (if frame.length < 6 then s.setLink n { s.link n with assembly := frame }
        else if receivedCrc frame = computedCrc frame then s.deliverAnswer n (frame.getD 2 0) (frame.getD 3 0)
        else s.badFrame n frame) := by
  subst hframe
  exact congrArg Host.Outcome.next (if_neg (Link.assembling_of_frame hreceiver hkind))

/-- A SAMPLE that enters a FIFO with a place, or takes that of the newest (R137). -/
theorem Link.enqueue_eq (k : Link) (x : Sample) :
    k.enqueue x =
      { k with
        fifo := if k.fifo.length < 3 then k.fifo ++ [x] else k.fifo.dropLast ++ [x]
        overrun := if k.fifo.length < 3 then k.overrun
          else some (k.overrun.elim 1 fun c => if c = 255 then 255 else c + 1) } := by
  unfold Link.enqueue
  by_cases h : k.fifo.length < 3
  · rw [if_pos (show k.fifo.length < Config.fifoCapacity from h), if_pos h, if_pos h]
  · rw [if_neg (show ¬ k.fifo.length < Config.fifoCapacity from h), if_neg h, if_neg h]
    cases k.overrun <;> rfl

theorem State.deliverSample_eq (s : State) (n : LineNo) (x : Sample) :
    s.deliverSample n x =
      s.setLink n
        { (s.link n).between.enqueue x with arrivals := (s.link n).arrivals ++ [⟨.judge x, false⟩] } := by
  have harr : ((s.link n).between.enqueue x).arrivals = (s.link n).arrivals := by
    rw [Link.enqueue_eq]
    rfl
  unfold State.deliverSample State.arrive
  dsimp only
  rw [State.link_setLink_same, harr]
  unfold State.setLink
  simp only [Vector.set_set]

theorem State.deliverAnswer_eq (s : State) (n : LineNo) (echo outcome : Byte) :
    s.deliverAnswer n echo outcome =
      s.setLink n
        { (s.link n).between with arrivals := (s.link n).arrivals ++ [⟨.answer echo outcome, false⟩] } := by
  unfold State.deliverAnswer State.arrive
  dsimp only
  rw [State.link_setLink_same]
  unfold State.setLink
  simp only [Vector.set_set]
  rfl

/-- Settles O39. -/
theorem framesAreAssembledAndJudgedByTheirCrc : Obligations.FramesAreAssembledAndJudgedByTheirCrc := by
  unfold Obligations.FramesAreAssembledAndJudgedByTheirCrc
  refine fun n c frame s hreceiver hframe => ⟨fun k hk => ?_, fun k hk sent hsent hcrc => ?_,
    fun hkind hlen hcrc x hx => ?_, fun hkind hlen hcrc => ?_⟩
  · rcases hk with ⟨rfl, hkind, hlen⟩ | ⟨rfl, hkind, hlen⟩
    · rw [exec_sampleFrame hreceiver hframe hkind, if_pos hlen]
      rfl
    · rw [exec_answerFrame hreceiver hframe hkind, if_pos hlen]
      rfl
  · subst hsent
    have hbad : ¬ receivedCrc frame = computedCrc frame := hcrc
    rcases hk with ⟨rfl, hkind, hlen⟩ | ⟨rfl, hkind, hlen⟩
    · rw [exec_sampleFrame hreceiver hframe hkind, if_neg (by rw [hlen]; decide), if_neg hbad]
      rfl
    · rw [exec_answerFrame hreceiver hframe hkind, if_neg (by rw [hlen]; decide), if_neg hbad]
      rfl
  · have hgood : receivedCrc frame = computedCrc frame := by
      unfold receivedCrc computedCrc
      rw [hlen]
      exact hcrc
    have hsample : sampleOf frame s.clock = x := hx.symm
    rw [exec_sampleFrame hreceiver hframe hkind, if_neg (by rw [hlen]; decide), if_pos hgood, hsample,
      State.deliverSample_eq, Link.enqueue_eq]
    unfold Link.between State.setLink
    cases (s.link n).overrun <;> rfl
  · have hgood : receivedCrc frame = computedCrc frame := by
      unfold receivedCrc computedCrc
      rw [hlen]
      exact hcrc
    rw [exec_answerFrame hreceiver hframe hkind, if_neg (by rw [hlen]; decide), if_pos hgood, State.deliverAnswer_eq]
    rfl

end Sys2Proof.Machine
end
-- ==== Sys2Proof/Proofs/LinkOperations.lean ====
section
/-! PROOFS. An event that a Field Link Controller takes in its turn, and the judgement of a sample at the link (O40); the
frames of the downlink (O41). -/

namespace Sys2Proof.Machine

variable {s : State}

/-! ### Operations of a controller -/

theorem State.link_of_links {t : State} {n : LineNo} {k : Link} (h : t.links = s.links.set n k) : t.link n = k := by
  unfold State.link
  rw [Fin.getElem_fin]
  simp only [h, Vector.getElem_set_self]

theorem State.link_postAll (s : State) (n : LineNo) (ps : List Post) : (s.postAll ps).link n = s.link n := by
  unfold State.postAll
  induction ps generalizing s with
  | nil => rfl
  | cons p rest ih => exact ih (s.accept p)

theorem State.noOwn_of_link {n : LineNo} {k : Link} (h : s.link n = k) (hk : ∀ a ∈ k.arrivals, a.input.source ≠ .own) :
    s.noOwn n := by
  unfold State.noOwn
  rwa [h]

theorem State.noOwn_postAll {n : LineNo} (ps : List Post) (h : s.noOwn n) : (s.postAll ps).noOwn n := by
  unfold State.noOwn
  rwa [State.link_postAll]

/-- What is left after an expiry is dropped holds no event that was not there. -/
theorem forall_without {p : LinkArrival → Prop} {l : List LinkArrival} (h : ∀ a ∈ l, p a) (e : LinkInput) :
    ∀ a ∈ without l e, p a := fun a ha => h a (List.mem_of_mem_filter ha)

/-- An operation with room for its posts: the other acts, and then the posts. -/
theorem State.operate_eq (b : Block) (acts : List Act) (h : s.room (postsOf acts).length) :
    s.operate b acts none = ((othersOf acts).foldl State.perform s).postAll (postsOf acts) := by
  rw [s.operate_of_room _ _ (postCount_eq acts ▸ h), s.foldl_perform_eq]

/-- A controller's operation with room for its posts, that leaves it no event of its own: the other acts, and then the
posts. -/
theorem State.operation_link_eq (n : LineNo) (acts : List Act) (h : s.room (postsOf acts).length)
    (hown : ((othersOf acts).foldl State.perform s).noOwn n) :
    s.operation (.link n) acts = ((othersOf acts).foldl State.perform s).postAll (postsOf acts) := by
  have hop := State.operate_eq (.link n) acts h
  rw [State.operation_link_of_noOwn _ _ _ _ (by rw [hop]; exact State.noOwn_postAll _ hown), hop]

/-- An operation without acts. -/
theorem State.operation_link_nil {n : LineNo} (hown : s.noOwn n) : s.operation (.link n) [] = s := State.flush_of_noOwn s n hown

/-- The state in which a controller takes the next event of a source. -/
def State.turned (s : State) (n : LineNo) (rest : List LinkArrival) : State :=
  s.setLink n { s.link n with arrivals := rest }

theorem State.link_turned (s : State) (n : LineNo) (rest : List LinkArrival) :
    (s.turned n rest).link n = { s.link n with arrivals := rest } := State.link_setLink_same _ _ _

theorem State.setLink_setLink (s : State) (n : LineNo) (k k' : Link) : (s.setLink n k).setLink n k' = s.setLink n k' := by
  unfold State.setLink
  simp only [Vector.set_set]

theorem State.setLink_turned (s : State) (n : LineNo) (rest : List LinkArrival) (k : Link) :
    (s.turned n rest).setLink n k = s.setLink n k := s.setLink_setLink n _ k

/-- An event whose taking is an operation with nothing to go on to. -/
theorem State.takeInput_eq {n : LineNo} {e : LinkInput} {rest : List LinkArrival}
    {take : State → State × List Act × Option Cont} {t : State} {acts : List Act} (hturn : linkTurn s n e rest)
    (htake : take (s.turned n rest) = ends t acts) (hroom : t.room (postsOf acts).length)
    (hown : ((othersOf acts).foldl State.perform t).noOwn n) :
    s.takeInput n e.source take = ((othersOf acts).foldl State.perform t).postAll (postsOf acts) := by
  unfold State.turned at htake
  rw [s.takeInput_of_turn n e rest take hturn, htake]
  exact State.operation_link_eq n acts hroom hown

/-- An event that is only taken. -/
theorem State.takeInput_silent {n : LineNo} {e : LinkInput} {rest : List LinkArrival}
    {take : State → State × List Act × Option Cont} {t : State} (hturn : linkTurn s n e rest)
    (htake : take (s.turned n rest) = ends t []) (hown : t.noOwn n) : s.takeInput n e.source take = t := by
  unfold State.turned at htake
  rw [s.takeInput_of_turn n e rest take hturn, htake]
  exact State.operation_link_nil hown

/-- An event that is lost. -/
theorem State.takeInput_lost {n : LineNo} {e : LinkInput} {rest : List LinkArrival}
    {take : State → State × List Act × Option Cont} (hturn : linkTurn s n e rest)
    (htake : take (s.turned n rest) = ends (s.turned n rest) []) : s.takeInput n e.source take = s.turned n rest :=
  State.takeInput_silent hturn htake (State.noOwn_of_link (s.link_turned n rest) hturn.2.2)

/-! ### O40: a sample at the link -/

theorem exec_sampleJudgedAtLink {n : LineNo} {x : Sample} {rest : List LinkArrival} (hturn : linkTurn s n (.judge x) rest) :
    exec (.sampleJudgedAtLink n) s = .next (s.takeInput n (LinkInput.judge x).source fun t => t.judge n x) := by
  have hnext : (s.link n).nextInput .receiver = some (.judge x, rest) := hturn.2.1
  simp only [exec, execSampleJudgedAtLink, hnext]
  rfl

/-- The acts of the link state's judgement (R146). -/
def judgeStateActs (s : State) (n : LineNo) (x : Sample) : List Act :=
  if (s.link n).state = .up then []
  else [.post (lineWord n 20 (wordOf (s.link n).unanswered 2)), .tell n (.stateChange .up)] ++
    (if (s.link n).state = .lost then [.hand (linkReported s n .linkRestored 0 x.arrival (s.link n).lostAt)] else [])

/-- The acts of the flag latch's judgement (R149). -/
def judgeLatchActs (s : State) (n : LineNo) (x : Sample) : List Act :=
  [.hand (linkReported s n .flags 0
      (longOf ((x.flags.setWidth 4 : BitVec 4).setWidth 16) ((s.link n).latchedFlags.setWidth 16))
      (longOf (x.seq.setWidth 16) 0)),
    .post (lineWord n 21 ((x.flags.setWidth 4 : BitVec 4).setWidth 16))]

theorem State.judgeState_eq {n : LineNo} {x : Sample} (hoff : (s.link n).state ≠ .off) :
    s.judgeState n x =
      ({ s.setLink n ((s.link n).sampleSeen x (s.config.word 3)) with
          freeCount := s.freeCount + (if (s.link n).state = .lost then 1 else 0) },
        judgeStateActs s n x) := by
  unfold State.judgeState judgeStateActs
  dsimp only
  cases h : (s.link n).state with
  | off => exact absurd h hoff
  | up | hunting | lost => rfl

/-- LATCHED FLAGS of a closed latch (R149). -/
theorem latchedFlagsWord_of_closed {k : Link} (h : k.latchOpen = false) : latchedFlagsWord k = k.latchedFlags.setWidth 16 := by
  unfold latchedFlagsWord
  rw [h]
  exact BitVec.zero_or

theorem State.judgeLatch_of_new {n : LineNo} {x : Sample}
    (h : (s.link n).latchOpen = true ∧ x.flags.setWidth 4 ≠ (s.link n).latchedFlags) :
    s.judgeLatch n x =
      ({ s.setLink n
          { s.link n with flagsSeen := x.flags.setWidth 4, latchOpen := false, latchedFlags := x.flags.setWidth 4 } with
          freeCount := s.freeCount + 1 },
        judgeLatchActs s n x) := by
  have hword : latchPost n
      { s.link n with flagsSeen := x.flags.setWidth 4, latchOpen := false, latchedFlags := x.flags.setWidth 4 } =
      .post (lineWord n 21 ((x.flags.setWidth 4 : BitVec 4).setWidth 16)) :=
    congrArg (postLine n 21) (latchedFlagsWord_of_closed rfl)
  unfold judgeLatchActs
  rw [← hword]
  exact if_pos h

theorem State.judgeLatch_of_old {n : LineNo} {x : Sample}
    (h : ¬ ((s.link n).latchOpen = true ∧ x.flags.setWidth 4 ≠ (s.link n).latchedFlags)) :
    s.judgeLatch n x = (s.setLink n { s.link n with flagsSeen := x.flags.setWidth 4 }, []) :=
  if_neg h

/-- The link after the judgement of a sample. -/
def judgedLink (s : State) (n : LineNo) (x : Sample) (rest : List LinkArrival) (latched : Bool) : Link :=
  { s.link n with
    arrivals := without rest .sampleExpiry
    state := .up
    sampleTimer := .running (s.config.word 3).toNat
    lastArrival := x.arrival
    lastSeq := x.seq
    flagsSeen := x.flags.setWidth 4
    latchOpen := if latched then false else (s.link n).latchOpen
    latchedFlags := if latched then x.flags.setWidth 4 else (s.link n).latchedFlags }

/-- The acts of the judgement of a sample. -/
def judgeActs (s : State) (n : LineNo) (x : Sample) (latched : Bool) (restored : Nat) : List Act :=
  judgeStateActs s n x ++ (if latched then judgeLatchActs { s with freeCount := s.freeCount + restored } n x else [])

theorem postsOf_judgeActs (n : LineNo) (x : Sample) (latched : Bool) (restored : Nat) :
    postsOf (judgeActs s n x latched restored) =
      (if (s.link n).state = .up then [] else [lineWord n 20 (wordOf (s.link n).unanswered 2)]) ++
        (if latched then [lineWord n 21 ((x.flags.setWidth 4 : BitVec 4).setWidth 16)] else []) := by
  unfold judgeActs
  rw [postsOf_append]
  unfold judgeStateActs
  cases (s.link n).state <;> cases latched <;> rfl

theorem length_postsOf_judgeActs (n : LineNo) (x : Sample) (latched : Bool) (restored : Nat) :
    (postsOf (judgeActs s n x latched restored)).length ≤ 2 := by
  rw [postsOf_judgeActs, List.length_append]
  refine Nat.add_le_add (b := 1) (d := 1) ?_ ?_ <;> split <;> simp

/-- The acts of the judgement besides its posts: the supervisor is told, and the reports are handed over. -/
theorem foldl_judgeActs (n : LineNo) (x : Sample) (latched : Bool) (restored free : Nat) (k : Link) :
    (othersOf (judgeActs s n x latched restored)).foldl State.perform
        { s with links := s.links.set n k, freeCount := free } =
      { s with
        links := s.links.set n k
        lines := if (s.link n).state = .up then s.lines else told s n [.stateChange .up]
        freeCount := free
        report := { s.report with
          handed := s.report.handed ++
            (if (s.link n).state = .lost
              then [linkReported s n .linkRestored 0 x.arrival (s.link n).lostAt] else []) ++
            (if latched then
              [linkReported { s with freeCount := s.freeCount + restored } n .flags 0
                (longOf ((x.flags.setWidth 4 : BitVec 4).setWidth 16) ((s.link n).latchedFlags.setWidth 16))
                (longOf (x.seq.setWidth 16) 0)] else []) } } := by
  unfold judgeActs
  rw [othersOf_append]
  unfold judgeStateActs
  cases (s.link n).state <;> cases latched <;>
    simp [othersOf, Act.isPost, State.perform, State.hand, told, judgeLatchActs, linkReported, State.setLine,
      State.line, State.link]

/-- The judgement of a sample at a link that is not OFF. -/
theorem State.judge_turned {n : LineNo} {x : Sample} {rest : List LinkArrival} {latched : Bool} {restored : Nat}
    (hoff : (s.link n).state ≠ .off)
    (hlatched : latched = true ↔ (s.link n).latchOpen = true ∧ x.flags.setWidth 4 ≠ (s.link n).latchedFlags)
    (hrestored : restored = (if (s.link n).state = .lost then 1 else 0)) :
    (s.turned n rest).judge n x =
      ends
        { s with
          links := s.links.set n (judgedLink s n x rest latched)
          freeCount := s.freeCount + restored + (if latched then 1 else 0) }
        (judgeActs s n x latched restored) := by
  have hlink := s.link_turned n rest
  have hoff' : ((s.turned n rest).link n).state ≠ .off := by
    rw [hlink]
    exact hoff
  have hacts : judgeStateActs (s.turned n rest) n x = judgeStateActs s n x := by
    unfold judgeStateActs
    rw [hlink]
    rfl
  have hstate := State.judgeState_eq (x := x) hoff'
  rw [hacts, hlink, State.setLink_turned, show (s.turned n rest).freeCount = s.freeCount from rfl,
    show ({ s.link n with arrivals := rest } : Link).state = (s.link n).state from rfl, ← hrestored] at hstate
  unfold State.judge
  rw [if_neg hoff', hstate]
  dsimp only
  generalize ht : ({ s.setLink n (Link.sampleSeen { s.link n with arrivals := rest } x ((s.turned n rest).config.word 3)) with
      freeCount := s.freeCount + restored } : State) = t
  have htlink : t.link n = Link.sampleSeen { s.link n with arrivals := rest } x (s.config.word 3) := by
    subst ht
    exact s.link_setLink_same _ _
  have hset (k : Link) : t.setLink n k = { s with links := s.links.set n k, freeCount := s.freeCount + restored } := by
    subst ht
    unfold State.setLink
    simp only [Vector.set_set]
  cases latched with
  | true =>
    have hnew : (t.link n).latchOpen = true ∧ x.flags.setWidth 4 ≠ (t.link n).latchedFlags := by
      rw [htlink]
      exact hlatched.mp rfl
    have hflags : judgeLatchActs t n x = judgeLatchActs { s with freeCount := s.freeCount + restored } n x := by
      unfold judgeLatchActs
      rw [htlink]
      subst ht
      rfl
    rw [State.judgeLatch_of_new hnew, hset, htlink, hflags, ← ht]
    rfl
  | false =>
    have hold : ¬ ((t.link n).latchOpen = true ∧ x.flags.setWidth 4 ≠ (t.link n).latchedFlags) := by
      rw [htlink]
      exact fun h => Bool.false_ne_true (hlatched.mpr h)
    rw [State.judgeLatch_of_old hold, hset, htlink]
    rfl

/-- Settles O40. -/
theorem aSampleIsJudgedAtTheLink : Obligations.ASampleIsJudgedAtTheLink := by
  unfold Obligations.ASampleIsJudgedAtTheLink
  refine fun n x rest s hturn hroom => ⟨fun hoff => ?_, fun latched restored k hoff hlatched hrestored hk => ?_⟩
  · rw [exec_sampleJudgedAtLink hturn]
    refine congrArg _ (State.takeInput_lost hturn (if_pos ?_))
    rw [State.link_turned]
    exact hoff
  · have hk' : k = judgedLink s n x rest latched := hk
    rw [exec_sampleJudgedAtLink hturn, hk']
    refine congrArg _ ((State.takeInput_eq hturn (State.judge_turned hoff hlatched hrestored) ?_ ?_).trans ?_)
    · exact Nat.le_trans (Nat.add_le_add_left (length_postsOf_judgeActs ..) _) hroom
    · rw [foldl_judgeActs]
      exact State.noOwn_of_link (State.link_of_links (s := s) rfl) (forall_without hturn.2.2 _)
    · rw [foldl_judgeActs, postsOf_judgeActs]

/-! ### O41: the frames of the downlink -/

/-- Settles O41. -/
theorem framesAreBuiltFromTheSupervisor : Obligations.FramesAreBuiltFromTheSupervisor := by
  unfold Obligations.FramesAreBuiltFromTheSupervisor
  refine ⟨fun l i k hk => congrArg lowByte (l.stageWord_of_val k.isLt hk),
    fun n s sync seq setpoint hsync hseq hsetpoint => ⟨fun k code payload sum hk hsum => ?_, fun sum hsum => ?_⟩⟩
  · subst hsync hseq hsetpoint hsum
    rcases hk with ⟨rfl, rfl, rfl⟩ | ⟨rfl, rfl, hcopy, rfl⟩ | ⟨rfl, rfl, hcopy, rfl⟩ | ⟨rfl, rfl, rfl⟩
    · rfl
    · obtain ⟨words, hwords⟩ := Option.ne_none_iff_exists'.mp hcopy
      unfold State.sendCommand
      simp only [hwords]
      rfl
    · unfold State.sendCommand
      simp only [hcopy]
      rfl
    · rfl
  · subst hsync hseq hsetpoint hsum
    rfl

end Sys2Proof.Machine
end
-- ==== Sys2Proof/Proofs/Transmitter.lean ====
section
/-! PROOFS. Requests and STOPs, and the end of a frame on the wire (O42, O43). -/

namespace Sys2Proof.Machine

variable {s : State}

/-! ### Taking the head of PENDING, and taking a STOP -/

theorem State.noOwn_of_sendCommand {n : LineNo} (k : CommandKind) (h : s.noOwn n) : (s.sendCommand n k).noOwn n := by
  unfold State.noOwn
  rwa [State.sendCommand_arrivals]

/-- The operation of a controller that sends the head of PENDING. -/
theorem State.operate_sent {n : LineNo} {k : CommandKind} {p : Post} (hroom : s.room 1) :
    (s.sendCommand n k).operate (.link n) [.post p] none = (s.sendCommand n k).postAll [p] := by
  refine State.operate_eq (s := s.sendCommand n k) (.link n) [.post p] ?_
  rw [State.room, State.sendCommand_queue]
  exact hroom

theorem State.noOwn_sent {n : LineNo} {k : CommandKind} {p : Post} (hown : s.noOwn n) :
    ((s.sendCommand n k).postAll [p]).noOwn n :=
  State.noOwn_postAll [p] (State.noOwn_of_sendCommand k hown)

/-- An event at which a controller sends the head of PENDING. -/
theorem State.takeInput_sent {n : LineNo} {e : LinkInput} {rest : List LinkArrival} {t : State} {k : CommandKind} {p : Post}
    {take : State → State × List Act × Option Cont} (hturn : linkTurn s n e rest)
    (htake : take (s.turned n rest) = ends (t.sendCommand n k) [.post p]) (hroom : t.room 1) (hown : t.noOwn n) :
    s.takeInput n e.source take = (t.sendCommand n k).postAll [p] := by
  unfold State.turned at htake
  rw [s.takeInput_of_turn n e rest take hturn, htake]
  have hop : (t.sendCommand n k).operate (.link n) [.post p] none = (t.sendCommand n k).postAll [p] := State.operate_sent hroom
  exact (State.operation_link_of_noOwn (t.sendCommand n k) n [.post p] none (by rw [hop]; exact State.noOwn_sent hown)).trans hop

/-- The acts of the taking of a STOP with link n as `k` (R141). -/
def stopActs (n : LineNo) (k : Link) : List Act :=
  (match k.inFlight with
    | some c => [.post (lastCommand n c.kind c.seq .superseded)]
    | none => []) ++
  [.enterStop n, .post (lastCommand n .stop k.downlinkSeq .awaiting)]

/-- The link as the STOP finds it in the slot. -/
def stopLink (k : Link) : Link :=
  if k.inFlight = none then k else { k.stopAnswerTimer with inFlight := none }

theorem postsOf_stopActs (n : LineNo) (k : Link) : postsOf (stopActs n k) = stopPosts n k := by
  unfold stopActs stopPosts
  cases k.inFlight <;> rfl

theorem othersOf_stopActs (n : LineNo) (k : Link) : othersOf (stopActs n k) = [.enterStop n] := by
  unfold stopActs
  cases k.inFlight <;> rfl

theorem length_stopPosts_le (n : LineNo) (k : Link) : (stopPosts n k).length ≤ 2 := by
  unfold stopPosts
  cases k.inFlight <;> simp

theorem State.takeStop_eq (s : State) (n : LineNo) :
    s.takeStop n = (s.setLink n (stopLink (s.link n)), stopActs n (s.link n)) := by
  have hself : s.setLink n (s.link n) = s := by
    unfold State.setLink State.link
    rw [Fin.getElem_fin, Vector.set_getElem_self]
  unfold State.takeStop stopLink stopActs
  dsimp only
  cases h : (s.link n).inFlight with
  | none =>
    rw [if_pos rfl, hself]
    rfl
  | some c => rfl

/-- The STOP enters the slot whatever the slot held. -/
theorem sendCommand_stopLink (s : State) (n : LineNo) (k : Link) :
    State.sendCommand (s.setLink n (stopLink k)) n .stop = stopTaken s n k := by
  unfold stopTaken State.sendCommand stopLink
  by_cases h : k.inFlight = none
  · simp only [h, if_true]
    rfl
  · simp only [h, if_false]
    simp only [State.setLink, State.link, Fin.getElem_fin, Vector.getElem_set_self, Vector.set_set]
    rfl

theorem forall_stopLink {p : LinkArrival → Prop} {k : Link} (h : ∀ a ∈ k.arrivals, p a) :
    ∀ a ∈ (stopLink k).arrivals, p a := by
  unfold stopLink
  split
  · exact h
  · exact forall_without h .answerExpiry

/-- The operation of a controller that takes a STOP. -/
theorem State.operate_stop {n : LineNo} {k : Link} (hroom : s.room 2) :
    (s.setLink n (stopLink k)).operate (.link n) (stopActs n k) none = State.postAll (stopTaken s n k) (stopPosts n k) := by
  have h := State.operate_eq (s := s.setLink n (stopLink k)) (.link n) (stopActs n k)
    (by rw [postsOf_stopActs]; exact Nat.le_trans (Nat.add_le_add_left (length_stopPosts_le n k) _) hroom)
  rwa [othersOf_stopActs, postsOf_stopActs, List.foldl_cons, List.foldl_nil,
    show State.perform (s.setLink n (stopLink k)) (.enterStop n) = stopTaken s n k from sendCommand_stopLink s n k] at h

theorem State.noOwn_stop {n : LineNo} {k : Link} (hk : ∀ a ∈ k.arrivals, a.input.source ≠ .own) :
    (State.postAll (stopTaken s n k) (stopPosts n k)).noOwn n := by
  rw [← sendCommand_stopLink]
  exact State.noOwn_postAll _ (State.noOwn_of_sendCommand .stop
    (State.noOwn_of_link (s.link_setLink_same n _) (forall_stopLink hk)))

/-! ### O42: requests and STOPs -/

theorem exec_frameRequest {n : LineNo} {r : RequestKind} {rest : List LinkArrival} (hturn : linkTurn s n (.request r) rest) :
    exec (.frameRequest n) s = .next (s.takeInput n (LinkInput.request r).source fun t => t.takeRequest n r) := by
  have hnext : (s.link n).nextInput .supervisor = some (.request r, rest) := hturn.2.1
  simp only [exec, execFrameRequest, hnext]
  rfl

theorem exec_stopRequest {n : LineNo} {rest : List LinkArrival} (hturn : linkTurn s n .stop rest) :
    exec (.stopRequest n) s = .next (s.takeInput n LinkInput.stop.source fun t => t.takeStopRequest n) := by
  have hnext : (s.link n).nextInput .supervisor = some (.stop, rest) := hturn.2.1
  simp only [exec, execStopRequest, hnext]
  rfl

/-- The link with its events left and its PENDING. -/
def State.requested (s : State) (n : LineNo) (rest : List LinkArrival) (pend : List RequestKind) : State :=
  s.setLink n { s.link n with arrivals := rest, pending := pend }

theorem State.link_requested (s : State) (n : LineNo) (rest : List LinkArrival) (pend : List RequestKind) :
    (s.requested n rest pend).link n = { s.link n with arrivals := rest, pending := pend } := State.link_setLink_same _ _ _

/-- A request joins PENDING unless its kind is there (R139). -/
theorem State.takeRequest_turned {n : LineNo} {r : RequestKind} {rest : List LinkArrival} {pend : List RequestKind}
    (hoff : (s.link n).state ≠ .off)
    (hpend : pend = (if r ∈ (s.link n).pending then (s.link n).pending else (s.link n).pending ++ [r])) :
    (s.turned n rest).takeRequest n r =
      ends ((s.requested n rest pend).takePending n).1 ((s.requested n rest pend).takePending n).2 := by
  have hlink := s.link_turned n rest
  have hjoined : (if r ∈ ((s.turned n rest).link n).pending then s.turned n rest
      else (s.turned n rest).setLink n
        { (s.turned n rest).link n with pending := ((s.turned n rest).link n).pending ++ [r] }) =
      s.requested n rest pend := by
    rw [hlink, State.setLink_turned, hpend]
    by_cases h : r ∈ (s.link n).pending
    · rw [if_pos h, if_pos h]
      rfl
    · rw [if_neg h, if_neg h]
      rfl
  unfold State.takeRequest
  rw [if_neg (by rw [hlink]; exact hoff)]
  exact congrArg (fun t : State => ends (t.takePending n).1 (t.takePending n).2) hjoined

theorem State.takeStopRequest_turned {n : LineNo} {rest : List LinkArrival} {k : Link}
    (hk : k = { s.link n with arrivals := rest, pending := [], stopWaiting := true })
    (hoff : (s.link n).state ≠ .off) (hstop : (s.link n).stopWaiting = false) (hwire : (s.link n).wire = .fill) :
    (s.turned n rest).takeStopRequest n = ends (s.setLink n (stopLink k)) (stopActs n k) := by
  have hlink := s.link_turned n rest
  have htake := State.takeStop_eq (s.setLink n k) n
  rw [State.link_setLink_same, State.setLink_setLink] at htake
  unfold State.takeStopRequest
  dsimp only
  rw [if_neg (by rw [hlink]; exact hoff), if_neg (by rw [hlink]; exact Bool.eq_false_iff.mp hstop), hlink, State.setLink_turned,
    if_pos hwire]
  subst hk
  rw [htake]

/-- A STOP that must wait empties PENDING (R141). -/
theorem State.takeStopRequest_of_busy {n : LineNo} {rest : List LinkArrival} (hoff : (s.link n).state ≠ .off)
    (hwaits : (s.link n).stopWaiting = true ∨ (s.link n).wire ≠ .fill) :
    (s.turned n rest).takeStopRequest n =
      ends (s.setLink n { s.link n with arrivals := rest, pending := [], stopWaiting := true }) [] := by
  have hlink := s.link_turned n rest
  unfold State.takeStopRequest
  dsimp only
  rw [if_neg (by rw [hlink]; exact hoff), hlink, State.setLink_turned, State.setLink_turned]
  by_cases hstop : (s.link n).stopWaiting = true
  · refine (if_pos hstop).trans ?_
    rw [hstop]
  · exact (if_neg hstop).trans (if_neg (hwaits.resolve_left hstop))

/-- Settles O42. -/
theorem requestsAndStopsReachTheWire : Obligations.RequestsAndStopsReachTheWire := by
  unfold Obligations.RequestsAndStopsReachTheWire
  refine ⟨fun k a rest src => k.nextInput_waited a rest src, fun k src hw => ⟨k.nextInput_none src,
      fun before after a h hb ha => k.nextInput_of_source src before after a hw h hb ha⟩, fun x echo outcome r => rfl,
    fun n rest s hroom => ⟨fun r pend hturn hpend => ⟨fun hoff => ?_, fun hoff => ⟨fun hbusy => ?_,
      fun h t ht hwire hslot hstop => ?_⟩⟩,
      fun hturn => ⟨fun hoff => ?_, fun hoff hwaits => ?_, fun k hk hoff hstop hwire => ?_⟩⟩⟩
  · rw [exec_frameRequest hturn]
    refine congrArg _ (State.takeInput_lost hturn (if_pos ?_))
    rw [State.link_turned]
    exact hoff
  · have hnone : (s.requested n rest pend).takePending n = (s.requested n rest pend, []) := by
      refine State.takePending_of_none ?_
      rw [State.link_requested]
      exact .inr hbusy
    have htake := State.takeRequest_turned (rest := rest) hoff hpend
    rw [hnone] at htake
    rw [exec_frameRequest hturn]
    exact congrArg _ (State.takeInput_silent hturn htake (State.noOwn_of_link (s.link_requested n rest pend) hturn.2.2))
  · subst ht
    have hhead := State.takePending_of_head (s := s.requested n rest (h :: t)) (n := n) (r := h) (more := t)
      (by rw [State.link_requested]) (by rw [State.link_requested]; exact hwire) (by rw [State.link_requested]; exact hslot)
      (by rw [State.link_requested]; exact hstop)
    have htake := State.takeRequest_turned (rest := rest) hoff hpend
    rw [hhead, State.link_requested] at htake
    have hset : ({ s.requested n rest (h :: t) with
        links := (s.requested n rest (h :: t)).links.set n { s.link n with arrivals := rest, pending := t } } : State) =
        { s with links := s.links.set n { s.link n with arrivals := rest, pending := t } } :=
      s.setLink_setLink n _ _
    rw [hset] at htake
    rw [exec_frameRequest hturn]
    exact congrArg _ (State.takeInput_sent hturn htake (Nat.le_trans (Nat.le_succ _) hroom)
      (State.noOwn_of_link (State.link_of_links (s := s) rfl) hturn.2.2))
  · rw [exec_stopRequest hturn]
    refine congrArg _ (State.takeInput_lost hturn (if_pos ?_))
    rw [State.link_turned]
    exact hoff
  · rw [exec_stopRequest hturn]
    exact congrArg _ (State.takeInput_silent hturn (State.takeStopRequest_of_busy hoff hwaits)
      (State.noOwn_of_link (s.link_setLink_same n _) hturn.2.2))
  · have hk' : ∀ a ∈ k.arrivals, a.input.source ≠ .own := hk ▸ hturn.2.2
    have htake := State.takeStopRequest_turned hk hoff hstop hwire
    unfold State.turned at htake
    rw [exec_stopRequest hturn, s.takeInput_of_turn n .stop rest _ hturn]
    refine congrArg _ ?_
    dsimp only
    rw [htake]
    have hop := State.operate_stop (k := k) (n := n) hroom
    exact (State.operation_link_of_noOwn (s.setLink n (stopLink k)) n (stopActs n k) none
      (by rw [hop]; exact State.noOwn_stop hk')).trans hop

end Sys2Proof.Machine
end
-- ==== Sys2Proof/Proofs/EndOfFrame.lean ====
section
/-! PROOFS. The end of a frame on the wire (O43): the controller's own event is taken at once. -/

namespace Sys2Proof.Machine

variable {s : State}

/-! ### The controller's own event -/

theorem State.flushLink_of_noOwn {n : LineNo} (count : Nat) (h : s.noOwn n) : State.flushLink n count s = s := by
  cases count with
  | zero => rfl
  | succ count =>
    unfold State.flushLink
    rw [Link.nextInput_own_none _ h]
    exact ite_self _

/-- The controller's own event that comes last is taken when the events before it are none of its own and none waited. -/
theorem State.flush_of_last {n : LineNo} {k : Link} {e : LinkInput} {t u : State} {acts : List Act}
    (hb : s.busy (.link n) = false) (he : e.source = .own) (hk : ∀ a ∈ k.arrivals, a.input.source ≠ .own)
    (hw : ∀ a ∈ k.arrivals, a.waited = false) (htake : (s.setLink n k).takeOwn n e = (t, acts))
    (hop : t.operate (.link n) acts none = u) (hown : u.noOwn n) : State.flush ((s.setLink n k).arrive n e) n = u := by
  have hlink : ((s.setLink n k).arrive n e).link n = { k with arrivals := k.arrivals ++ [⟨e, false⟩] } := by
    unfold State.arrive
    dsimp only
    rw [State.link_setLink_same, State.link_setLink_same]
  have hnext : Link.nextInput { k with arrivals := k.arrivals ++ [⟨e, false⟩] } .own = some (e, k.arrivals) := by
    rw [Link.nextInput_of_source _ .own k.arrivals [] ⟨e, false⟩ ?_ rfl hk he, List.append_nil]
    intro b hb
    have hmem : b ∈ k.arrivals ++ [⟨e, false⟩] := List.mem_of_mem_head? hb
    rcases List.mem_append.mp hmem with h | h
    · exact hw b h
    · rw [List.mem_singleton.mp h]
  have hback : ((s.setLink n k).arrive n e).setLink n k = s.setLink n k := by
    unfold State.arrive
    dsimp only
    rw [State.setLink_setLink, State.setLink_setLink]
  have hbusy : ((s.setLink n k).arrive n e).busy (.link n) = false := hb
  unfold State.flush
  rw [hlink]
  dsimp only
  rw [List.length_append, List.length_singleton]
  unfold State.flushLink
  rw [if_neg (by rw [hbusy]; decide), hlink, hnext]
  dsimp only
  rw [hback, htake]
  dsimp only
  rw [hop]
  exact State.flushLink_of_noOwn _ hown

/-! ### The end of a frame (R140, R144, R151) -/

/-- The link at the end of a frame. -/
theorem Link.frameEnded_eq {k : Link} {kind : FrameKind} {restarts : Bool} (c : ConfigUnit)
    (hr : restarts = true ↔ kind ≠ .command .mix) :
    k.frameEnded kind c =
      { k with
        wire := .fill
        wireRate := c.word 1
        inFlight := if kind = .refresh then k.inFlight else k.inFlight.map fun c => { c with awaiting := true }
        answerTimer := if kind = .refresh then k.answerTimer else .running (c.word 4).toNat
        refreshTimer := if restarts then .running (c.word 5).toNat else k.refreshTimer
        refreshOwed := if restarts then false else k.refreshOwed
        arrivals := if restarts then without k.arrivals .refreshExpiry else k.arrivals } := by
  cases kind with
  | refresh =>
    obtain rfl : restarts = true := hr.mpr (by decide)
    rfl
  | command kind =>
    cases kind with
    | mix =>
      obtain rfl : restarts = false := Bool.eq_false_iff.mpr fun h => hr.mp h rfl
      rfl
    | setpoint | stop =>
      obtain rfl : restarts = true := hr.mpr (by decide)
      rfl

theorem exec_frameSent {n : LineNo} {kind : FrameKind} {chars : List Byte} (hwire : (s.link n).wire = .sending kind chars) :
    exec (.frameSent n) s =
      .next (State.flush (State.arrive (s.setLink n ((s.link n).frameEnded kind s.config)) n .takeNext) n) := by
  simp only [exec, execFrameSent, hwire]

/-- What a free wire takes next (R140). -/
theorem State.takeNext_of_stop {n : LineNo} {k : Link} (hwire : k.wire = .fill) (hstop : k.stopWaiting = true) :
    (s.setLink n k).takeNext n = (s.setLink n (stopLink k), stopActs n k) := by
  have htake := State.takeStop_eq (s.setLink n k) n
  rw [State.link_setLink_same, State.setLink_setLink] at htake
  unfold State.takeNext
  rw [State.link_setLink_same]
  exact (if_neg (not_not.mpr hwire)).trans ((if_pos hstop).trans htake)

theorem State.takeNext_of_pending {n : LineNo} {k : Link} (hwire : k.wire = .fill) (hstop : k.stopWaiting = false)
    (hpend : k.pending ≠ []) : (s.setLink n k).takeNext n = (s.setLink n k).takePending n := by
  unfold State.takeNext
  rw [State.link_setLink_same]
  exact (if_neg (not_not.mpr hwire)).trans ((if_neg (Bool.eq_false_iff.mp hstop)).trans (if_pos hpend))

theorem State.takeNext_of_refresh {n : LineNo} {k : Link} (hwire : k.wire = .fill) (hstop : k.stopWaiting = false)
    (hpend : k.pending = []) (howed : k.refreshOwed = true) :
    (s.setLink n k).takeNext n = ((s.setLink n k).sendRefresh n, []) := by
  unfold State.takeNext
  rw [State.link_setLink_same]
  exact (if_neg (not_not.mpr hwire)).trans ((if_neg (Bool.eq_false_iff.mp hstop)).trans
    ((if_neg (not_not.mpr hpend)).trans (if_pos howed)))

theorem State.takeNext_of_none {n : LineNo} {k : Link} (hwire : k.wire = .fill) (hstop : k.stopWaiting = false)
    (hpend : k.pending = []) (howed : k.refreshOwed = false) : (s.setLink n k).takeNext n = (s.setLink n k, []) := by
  unfold State.takeNext
  rw [State.link_setLink_same]
  exact (if_neg (not_not.mpr hwire)).trans ((if_neg (Bool.eq_false_iff.mp hstop)).trans
    ((if_neg (not_not.mpr hpend)).trans (if_neg (Bool.eq_false_iff.mp howed))))

theorem State.noOwn_sendRefresh {n : LineNo} (h : s.noOwn n) : (s.sendRefresh n).noOwn n :=
  State.noOwn_of_link (State.link_setLink_same _ n _) h

/-- Settles O43. -/
theorem theEndOfAFrameFreesTheWire : Obligations.TheEndOfAFrameFreesTheWire := by
  unfold Obligations.TheEndOfAFrameFreesTheWire
  intro n kind chars restarts k s hwire hb hown hnone hroom hrestarts hk
  have hended : (s.link n).frameEnded kind s.config = k := (Link.frameEnded_eq s.config hrestarts).trans hk.symm
  have hsub (a : LinkArrival) (ha : a ∈ k.arrivals) : a ∈ (s.link n).arrivals := by
    subst hk
    cases restarts with
    | true => exact List.mem_of_mem_filter ha
    | false => exact ha
  have hkown : ∀ a ∈ k.arrivals, a.input.source ≠ .own := fun a ha => hown a (hsub a ha)
  have hkwire : k.wire = .fill := hk ▸ rfl
  have hsetown : (s.setLink n k).noOwn n := State.noOwn_of_link (s.link_setLink_same n k) hkown
  have hexec {t u : State} {acts : List Act} (htake : (s.setLink n k).takeNext n = (t, acts))
      (hop : t.operate (.link n) acts none = u) (hu : u.noOwn n) : exec (.frameSent n) s = .next u := by
    rw [exec_frameSent hwire, hended,
      State.flush_of_last hb rfl hkown (fun a ha => hnone a (hsub a ha)) (e := .takeNext) htake hop hu]
  refine ⟨fun hstop => ?_, fun h t hstop hpend hslot => ?_, fun hstop hpend howed => ?_, fun hstop hrest => ?_⟩
  · exact hexec (State.takeNext_of_stop hkwire hstop) (State.operate_stop hroom) (State.noOwn_stop hkown)
  · have hlink := s.link_setLink_same n k
    have htake := (State.takeNext_of_pending (s := s) (n := n) hkwire hstop (by rw [hpend]; nofun)).trans
      (State.takePending_of_head (by rw [hlink, hpend]) (by rw [hlink, hkwire]) (by rw [hlink, hslot]) (by rw [hlink, hstop]))
    have hset : ({ s.setLink n k with links := (s.setLink n k).links.set n { k with pending := t } } : State) =
        { s with links := s.links.set n { k with pending := t } } := s.setLink_setLink n _ _
    rw [hlink, hset] at htake
    exact hexec htake (State.operate_sent (Nat.le_trans (Nat.le_succ _) hroom))
      (State.noOwn_sent (State.noOwn_of_link (State.link_of_links (s := s) rfl) hkown))
  · exact hexec (State.takeNext_of_refresh hkwire hstop hpend howed) rfl (State.noOwn_sendRefresh hsetown)
  · rcases hrest with ⟨hpend, hslot⟩ | ⟨hpend, howed⟩
    · refine hexec ((State.takeNext_of_pending hkwire hstop hpend).trans (State.takePending_of_none ?_)) rfl hsetown
      rw [State.link_setLink_same]
      exact .inr (.inr (.inl hslot))
    · exact hexec (State.takeNext_of_none hkwire hstop hpend howed) rfl hsetown

end Sys2Proof.Machine
end
-- ==== Sys2Proof/Proofs/Answers.lean ====
section
/-! PROOFS. Answers and their timeout (O44): the command ends, and the head of PENDING is taken where the wire is free. -/

namespace Sys2Proof.Machine

variable {s : State}

/-! ### LAST COMMAND (11.3) -/

theorem lastCommandWord_toNat (kind : CommandKind) (seq : Byte) (status : CommandStatus) :
    (lastCommandWord kind seq status).toNat = seq.toNat + 0x100 * kind.code.toNat + 0x1000 * status.code.toNat := by
  have hcodes : ((status.code <<< 12) ||| (kind.code <<< 8)).toNat = (16 * status.code.toNat + kind.code.toNat) <<< 8 := by
    cases status <;> cases kind <;> decide
  have hseq : (seq.setWidth 16).toNat = seq.toNat :=
    BitVec.toNat_setWidth_of_le (by decide)
  unfold lastCommandWord
  rw [BitVec.toNat_or, hcodes, hseq, ← Nat.shiftLeft_add_eq_or_of_lt seq.isLt, Nat.shiftLeft_eq]
  omega

/-! ### An operation that goes on to PENDING -/

theorem State.sendCommand_accept (s : State) (n : LineNo) (k : CommandKind) (p : Post) :
    (s.accept p).sendCommand n k = (s.sendCommand n k).accept p := by
  cases k with
  | setpoint | stop => rfl
  | mix =>
    have hline : (s.accept p).line n = s.line n := rfl
    unfold State.sendCommand
    dsimp only
    rw [hline]
    cases (s.line n).copy <;> rfl

theorem State.sendCommand_postAll (s : State) (n : LineNo) (k : CommandKind) (ps : List Post) :
    (s.postAll ps).sendCommand n k = (s.sendCommand n k).postAll ps := by
  unfold State.postAll
  induction ps generalizing s with
  | nil => rfl
  | cons p rest ih =>
    rw [List.foldl_cons, List.foldl_cons, ih, State.sendCommand_accept]

theorem State.setLink_postAll (s : State) (n : LineNo) (k : Link) (ps : List Post) :
    (s.postAll ps).setLink n k = (s.setLink n k).postAll ps := by
  unfold State.postAll
  induction ps generalizing s with
  | nil => rfl
  | cons p rest ih => exact ih (s.accept p)

/-- A post takes one place at most. -/
theorem State.room_postAll {m : Nat} (ps : List Post) (h : s.room (ps.length + m)) : (s.postAll ps).room m := by
  induction ps generalizing s with
  | nil => rwa [List.length_nil, Nat.zero_add] at h
  | cons p rest ih =>
    refine ih (s := s.accept p) ?_
    have hl := joinQueue_length_le s.queue p
    simp only [State.room, State.accept_queue, List.length_cons] at h ⊢
    omega

/-- A controller's operation that goes on to PENDING, with room for its posts: what its acts leave is what PENDING finds. -/
theorem State.operate_pending {n : LineNo} {acts : List Act} {u : State}
    (hroom : s.room (postsOf acts).length) (hu : (othersOf acts).foldl State.perform s = u) :
    s.operate (.link n) acts (some (.takePending n)) =
      (((u.postAll (postsOf acts)).takePending n).1.runActs (.link n) none ((u.postAll (postsOf acts)).takePending n).2).1 := by
  unfold State.operate
  rw [State.runActs_of_room _ _ acts s (postCount_eq acts ▸ hroom), s.foldl_perform_eq, hu]
  rfl

/-- Nothing of PENDING is taken. -/
theorem State.operation_pending_none {n : LineNo} {acts : List Act} {u : State} {k : Link}
    (hroom : s.room (postsOf acts).length) (hu : (othersOf acts).foldl State.perform s = u) (hlink : u.link n = k)
    (hown : ∀ a ∈ k.arrivals, a.input.source ≠ .own)
    (hnone : k.pending = [] ∨ k.wire ≠ .fill ∨ k.inFlight ≠ none ∨ k.stopWaiting = true) :
    s.operation (.link n) acts (some (.takePending n)) = u.postAll (postsOf acts) := by
  have hop : s.operate (.link n) acts (some (.takePending n)) = u.postAll (postsOf acts) := by
    rw [State.operate_pending hroom hu, State.takePending_of_none (by rw [State.link_postAll, hlink]; exact hnone)]
    rfl
  rw [State.operation_link_of_noOwn _ _ _ _ (by rw [hop]; exact State.noOwn_postAll _ (State.noOwn_of_link hlink hown)), hop]

/-- The head of PENDING is taken. -/
theorem State.operation_pending_head {n : LineNo} {acts : List Act} {u : State} {k : Link} {r : RequestKind}
    {more : List RequestKind} (hroom : s.room ((postsOf acts).length + 1))
    (hu : (othersOf acts).foldl State.perform s = u) (hqueue : u.queue = s.queue) (hlink : u.link n = k)
    (hown : ∀ a ∈ k.arrivals, a.input.source ≠ .own) (hpend : k.pending = r :: more) (hwire : k.wire = .fill)
    (hslot : k.inFlight = none) (hstop : k.stopWaiting = false) :
    s.operation (.link n) acts (some (.takePending n)) =
      ((u.setLink n { k with pending := more }).sendCommand n r.command).postAll
        (postsOf acts ++ [lastCommand n r.command k.downlinkSeq .awaiting]) := by
  have hu' : (u.postAll (postsOf acts)).link n = k := by rw [State.link_postAll, hlink]
  have htake := State.takePending_of_head (s := u.postAll (postsOf acts)) (n := n) (r := r) (more := more)
    (by rw [hu', hpend]) (by rw [hu', hwire]) (by rw [hu', hslot]) (by rw [hu', hstop])
  have hset : ({ u.postAll (postsOf acts) with
      links := (u.postAll (postsOf acts)).links.set n { k with pending := more } } : State) =
      (u.setLink n { k with pending := more }).postAll (postsOf acts) := State.setLink_postAll u n _ _
  rw [hu', hset, State.sendCommand_postAll] at htake
  have hroom' : (u.setLink n { k with pending := more }).room ((postsOf acts).length + 1) := by
    unfold State.room at hroom ⊢
    rw [← hqueue] at hroom
    exact hroom
  have hsent := State.operate_sent (n := n) (k := r.command) (p := lastCommand n r.command k.downlinkSeq .awaiting)
    (State.room_postAll (postsOf acts) hroom')
  rw [State.sendCommand_postAll, State.postAll_append] at hsent
  have hop : s.operate (.link n) acts (some (.takePending n)) =
      ((u.setLink n { k with pending := more }).sendCommand n r.command).postAll
        (postsOf acts ++ [lastCommand n r.command k.downlinkSeq .awaiting]) := by
    rw [State.operate_pending (Nat.le_trans (Nat.le_succ _) hroom) hu, htake, ← hsent, State.operate_of_no_cont]
  rw [State.operation_link_of_noOwn _ _ _ _ ?_, hop]
  rw [hop]
  exact State.noOwn_postAll _ (State.noOwn_of_sendCommand _ (State.noOwn_of_link (State.link_setLink_same _ n _) hown))

/-! ### The end of a command -/

/-- The acts of the end of a command: its posts, its reports, and what the supervisor is told (log 22). -/
def endActs (n : LineNo) (posts : List Post) (reports : List Report) (events : List LinkEvent) : List Act :=
  posts.map .post ++ (reports.map .hand ++ events.map (.tell n))

theorem postsOf_endActs (n : LineNo) (posts : List Post) (reports : List Report) (events : List LinkEvent) :
    postsOf (endActs n posts reports events) = posts := by
  have hreports : postsOf (reports.map .hand) = [] := by simp [postsOf]
  have hevents : postsOf (events.map (.tell n)) = [] := by simp [postsOf]
  unfold endActs
  rw [postsOf_append, postsOf_append, postsOf_map_post, hreports, hevents, List.append_nil, List.append_nil]

theorem othersOf_endActs (n : LineNo) (posts : List Post) (reports : List Report) (events : List LinkEvent) :
    othersOf (endActs n posts reports events) = reports.map .hand ++ events.map (.tell n) := by
  have hposts : othersOf (posts.map .post) = [] := by simp [othersOf, Act.isPost]
  have hreports : othersOf (reports.map .hand) = reports.map .hand := by simp [othersOf, Act.isPost]
  have hevents : othersOf (events.map (.tell n)) = events.map (.tell n) := by simp [othersOf, Act.isPost]
  unfold endActs
  rw [othersOf_append, othersOf_append, hposts, hreports, hevents, List.nil_append]

theorem foldl_hand (reports : List Report) (s : State) :
    (reports.map Act.hand).foldl State.perform s =
      { s with report := { s.report with handed := s.report.handed ++ reports } } := by
  induction reports generalizing s with
  | nil => simp
  | cons r rest ih =>
    rw [List.map_cons, List.foldl_cons, ih]
    simp [State.perform, State.hand]

theorem told_nil (s : State) (n : LineNo) : told s n [] = s.lines := by
  unfold told
  rw [List.append_nil]
  exact Vector.set_getElem_self _

theorem foldl_tell (n : LineNo) (events : List LinkEvent) (s : State) :
    (events.map (Act.tell n)).foldl State.perform s = { s with lines := told s n events } := by
  induction events generalizing s with
  | nil => rw [told_nil, List.map_nil, List.foldl_nil]
  | cons e rest ih =>
    rw [List.map_cons, List.foldl_cons, ih]
    simp [State.perform, told, State.setLine, State.line]

/-- What the reports and the events of the end of a command leave. -/
theorem foldl_endActs (n : LineNo) (posts : List Post) (reports : List Report) (events : List LinkEvent) (s : State) :
    (othersOf (endActs n posts reports events)).foldl State.perform s =
      { s with
        lines := told s n events
        report := { s.report with handed := s.report.handed ++ reports } } := by
  rw [othersOf_endActs, List.foldl_append, foldl_hand, foldl_tell]
  rfl

/-- The link without the command, its events left. -/
def endedLink (s : State) (n : LineNo) (rest : List LinkArrival) (count : Byte) : Link :=
  { s.link n with
    arrivals := without rest .answerExpiry
    inFlight := none
    answerTimer := .stopped
    unanswered := count }

/-- The posts of the end of a command: LAST COMMAND, and LINK STATE where the count has changed or always (R142, R143). -/
def endPosts (s : State) (n : LineNo) (c : Command) (status : CommandStatus) (count : Byte) (always : Bool) : List Post :=
  [lastCommand n c.kind c.seq status] ++
    (if count = (s.link n).unanswered ∧ always = false then []
      else [lineWord n 20 (wordOf count (lowByte (s.link n).state.code))])

/-- The taking of an event that ends the command. -/
structure EndsCommand (s : State) (n : LineNo) (e : LinkInput) (i : Instr) (rest : List LinkArrival) (count : Byte)
    (posts : List Post) (reports : List Report) (events : List LinkEvent) : Prop where
  turn : linkTurn s n e rest
  takes : ∃ take : State → State × List Act × Option Cont,
    exec i s = .next (s.takeInput n e.source take) ∧
      take (s.turned n rest) =
        ({ s with links := s.links.set n (endedLink s n rest count), freeCount := s.freeCount + reports.length },
          endActs n posts reports events, some (.takePending n))

section Ends

variable {n : LineNo} {e : LinkInput} {i : Instr} {rest : List LinkArrival} {count : Byte} {posts : List Post}
  {reports : List Report} {events : List LinkEvent}

theorem EndsCommand.exec_none (h : EndsCommand s n e i rest count posts reports events) (hroom : s.room posts.length)
    (hnone : (s.link n).pending = [] ∨ (s.link n).wire ≠ .fill ∨ (s.link n).stopWaiting = true) :
    exec i s =
      .next (State.postAll
        { s with
          links := s.links.set n (endedLink s n rest count)
          lines := told s n events
          freeCount := s.freeCount + reports.length
          report := { s.report with handed := s.report.handed ++ reports } }
        posts) := by
  obtain ⟨hturn, take, hexec, htake⟩ := h
  unfold State.turned at htake
  rw [hexec, s.takeInput_of_turn n e rest take hturn, htake]
  have hop := State.operation_pending_none
    (s := { s with links := s.links.set n (endedLink s n rest count), freeCount := s.freeCount + reports.length })
    (n := n) (k := endedLink s n rest count) (by rw [postsOf_endActs]; exact hroom) (foldl_endActs n posts reports events _)
    (State.link_of_links (s := s) rfl) (forall_without hturn.2.2 _)
    (hnone.elim .inl fun h => .inr (h.elim .inl fun h => .inr (.inr h)))
  rw [postsOf_endActs] at hop
  exact congrArg _ hop

theorem EndsCommand.exec_head (h : EndsCommand s n e i rest count posts reports events) (hroom : s.room (posts.length + 1))
    {r : RequestKind} {more : List RequestKind} (hpend : (s.link n).pending = r :: more) (hwire : (s.link n).wire = .fill)
    (hstop : (s.link n).stopWaiting = false) :
    exec i s =
      .next (State.postAll
        (State.sendCommand
          { s with
            links := s.links.set n { endedLink s n rest count with pending := more }
            lines := told s n events
            freeCount := s.freeCount + reports.length
            report := { s.report with handed := s.report.handed ++ reports } }
          n r.command)
        (posts ++ [lastCommand n r.command (s.link n).downlinkSeq .awaiting])) := by
  obtain ⟨hturn, take, hexec, htake⟩ := h
  unfold State.turned at htake
  rw [hexec, s.takeInput_of_turn n e rest take hturn, htake]
  have hop := State.operation_pending_head
    (s := { s with links := s.links.set n (endedLink s n rest count), freeCount := s.freeCount + reports.length })
    (n := n) (k := endedLink s n rest count) (r := r) (more := more) (by rw [postsOf_endActs]; exact hroom)
    (foldl_endActs n posts reports events _) rfl (State.link_of_links (s := s) rfl) (forall_without hturn.2.2 _) hpend hwire rfl
    hstop
  rw [postsOf_endActs] at hop
  refine congrArg _ (hop.trans ?_)
  unfold State.setLink
  simp only [Vector.set_set]
  rfl

end Ends

/-! ### The events that end a command (R142, R143) -/

/-- LINK STATE where the count has changed. -/
theorem countPost_eq (s : State) (n : LineNo) (rest : List LinkArrival) (count : Byte) :
    countPost n { s.link n with arrivals := rest } (endedLink s n rest count) =
      (if count = (s.link n).unanswered ∧ false = false then []
        else [lineWord n 20 (wordOf count (lowByte (s.link n).state.code))]).map Act.post := by
  by_cases h : count = (s.link n).unanswered
  · have hcond : count = (s.link n).unanswered ∧ false = false := ⟨h, rfl⟩
    rw [if_pos hcond]
    exact if_pos h
  · have hcond : ¬ (count = (s.link n).unanswered ∧ false = false) := fun hc => h hc.1
    rw [if_neg hcond]
    exact if_neg h

/-- A matching answer, by its outcome. -/
theorem State.takeAnswer_turned {n : LineNo} {c : Command} {outcome : Byte} {rest : List LinkArrival} {status : CommandStatus}
    {count : Byte} {events : List LinkEvent} {reports : List Report}
    (hcase : outcome = 0 ∧ status = .applied ∧ count = 0 ∧ events = [] ∧ reports = [] ∨
      outcome = 1 ∧ status = .refusedLocal ∧ count = 0 ∧ events = [.refusedLocal c.seq] ∧ reports = [] ∨
      2 ≤ outcome.toNat ∧ status = .malformed ∧ count = raised (s.link n).unanswered ∧ events = [.unanswered count] ∧
        reports =
          [linkReported s n .linkError 5 (longOf (c.seq.setWidth 16) ((FrameKind.command c.kind).code.setWidth 16))
            (longOf (count.setWidth 16) 1)]) :
    (s.turned n rest).takeAnswer n c outcome =
      ({ s with links := s.links.set n (endedLink s n rest count), freeCount := s.freeCount + reports.length },
        endActs n (endPosts s n c status count false) reports events, some (.takePending n)) := by
  have hlink := s.link_turned n rest
  unfold State.takeAnswer endActs endPosts
  dsimp only
  rw [hlink, List.map_append, ← countPost_eq s n rest count]
  rcases hcase with ⟨rfl, rfl, rfl, rfl, rfl⟩ | ⟨rfl, rfl, rfl, rfl, rfl⟩ | ⟨houtcome, rfl, rfl, rfl, rfl⟩
  · rw [if_pos rfl, State.setLink_turned, List.map_nil, List.map_nil, List.append_nil, List.append_nil]
    rfl
  · rw [if_neg (by decide), if_pos rfl, State.setLink_turned]
    rfl
  · have h0 : outcome ≠ 0 := by
      rintro rfl
      exact absurd houtcome (by decide)
    have h1 : outcome ≠ 1 := by
      rintro rfl
      exact absurd houtcome (by decide)
    rw [if_neg h0, if_neg h1, State.setLink_turned]
    rfl

/-- An expired answer timer with a command AWAITING. -/
theorem State.takeAnswerTimeout_turned {n : LineNo} {c : Command} {rest : List LinkArrival} {count : Byte}
    (hslot : (s.link n).inFlight = some c) (hawait : c.awaiting = true) (hcount : count = raised (s.link n).unanswered) :
    (s.turned n rest).takeAnswerTimeout n =
      ({ s with links := s.links.set n (endedLink s n rest count), freeCount := s.freeCount + 1 },
        endActs n (endPosts s n c .unanswered count true)
          [linkReported s n .linkError 5 (longOf (c.seq.setWidth 16) ((FrameKind.command c.kind).code.setWidth 16))
            (longOf (count.setWidth 16) 0)] [.unanswered count], some (.takePending n)) := by
  have hlink := s.link_turned n rest
  subst hcount
  unfold State.takeAnswerTimeout
  dsimp only
  simp only [hlink, hslot, hawait, if_true, State.setLink_turned]
  unfold endActs endPosts
  rw [if_neg (by simp)]
  rfl

theorem exec_answer {n : LineNo} {echo outcome : Byte} {rest : List LinkArrival} (hturn : linkTurn s n (.answer echo outcome) rest) :
    exec (.answer n) s =
      .next (s.takeInput n (LinkInput.answer echo outcome).source fun t => t.judgeAnswer n echo outcome) := by
  have hnext : (s.link n).nextInput .receiver = some (.answer echo outcome, rest) := hturn.2.1
  simp only [exec, execAnswer, hnext]
  rfl

/-- An answer that matches the slot is taken. -/
theorem State.judgeAnswer_of_match {n : LineNo} {c : Command} {rest : List LinkArrival} {outcome : Byte}
    (hslot : (s.link n).inFlight = some c) (hawait : c.awaiting = true) :
    (s.turned n rest).judgeAnswer n c.seq outcome = (s.turned n rest).takeAnswer n c outcome := by
  have hslot' : ((s.turned n rest).link n).inFlight = some c := by
    rw [State.link_turned]
    exact hslot
  unfold State.judgeAnswer
  rw [hslot']
  exact if_pos ⟨hawait, rfl⟩

theorem State.judgeAnswer_of_other {n : LineNo} {echo outcome : Byte} {rest : List LinkArrival}
    (h : ∀ c, (s.link n).inFlight = some c → c.awaiting = false ∨ c.seq ≠ echo) :
    (s.turned n rest).judgeAnswer n echo outcome = ends (s.turned n rest) [] := by
  unfold State.judgeAnswer
  rw [State.link_turned]
  dsimp only
  cases hslot : (s.link n).inFlight with
  | none => rfl
  | some c =>
    refine if_neg fun hmatch => ?_
    obtain ⟨hawait, hseq⟩ := hmatch
    rcases h c hslot with h | h
    · rw [h] at hawait
      cases hawait
    · exact h hseq

theorem State.takeAnswerTimeout_of_none {n : LineNo} {rest : List LinkArrival}
    (h : ∀ c, (s.link n).inFlight = some c → c.awaiting = false) :
    (s.turned n rest).takeAnswerTimeout n = ends (s.turned n rest) [] := by
  unfold State.takeAnswerTimeout
  rw [State.link_turned]
  dsimp only
  cases hslot : (s.link n).inFlight with
  | none => rfl
  | some c => exact if_neg (by rw [h c hslot]; decide)

/-- Settles O44. -/
theorem anAnswerOrItsTimeoutEndsTheCommand : Obligations.AnAnswerOrItsTimeoutEndsTheCommand := by
  unfold Obligations.AnAnswerOrItsTimeoutEndsTheCommand
  refine ⟨lastCommandWord_toNat, by decide, by decide, by decide, by decide,
    fun n rest s hroom => ⟨fun echo outcome hturn hother => ?_, fun hturn hnone => ?_,
      fun e i c status up count events reports k posts hturn hslot hawait hup hcase hk hposts => ?_⟩⟩
  · rw [exec_answer hturn]
    exact congrArg _ (State.takeInput_lost hturn (State.judgeAnswer_of_other hother))
  · exact congrArg _ (State.takeInput_lost (take := fun t => t.takeAnswerTimeout n) hturn (State.takeAnswerTimeout_of_none hnone))
  · have hends : EndsCommand s n e i rest count posts reports events := by
      have hendPosts {always : Bool} (h : always = false ↔ e ≠ .answerExpiry) :
          posts = endPosts s n c status count always := by
        rw [hposts]
        exact congrArg (_ ++ ·) (if_congr (and_congr_right fun _ => h.symm) rfl rfl)
      have hanswer {outcome : Byte} (he : e = .answer c.seq outcome) (hi : i = .answer n)
          (hof : outcome = 0 ∧ status = .applied ∧ count = 0 ∧ events = [] ∧ reports = [] ∨
            outcome = 1 ∧ status = .refusedLocal ∧ count = 0 ∧ events = [.refusedLocal c.seq] ∧ reports = [] ∨
            2 ≤ outcome.toNat ∧ status = .malformed ∧ count = raised (s.link n).unanswered ∧ events = [.unanswered count] ∧
              reports =
                [linkReported s n .linkError 5 (longOf (c.seq.setWidth 16) ((FrameKind.command c.kind).code.setWidth 16))
                  (longOf (count.setWidth 16) 1)]) : EndsCommand s n e i rest count posts reports events := by
        rw [hendPosts (always := false) (by rw [he]; simp)]
        subst he hi
        exact ⟨hturn, _, exec_answer hturn, (State.judgeAnswer_of_match hslot hawait).trans (State.takeAnswer_turned hof)⟩
      rcases hcase with ⟨he, hi, hst, hco, hev, hre⟩ | ⟨he, hi, hst, hco, hev, hre⟩ | ⟨⟨outcome, ho, he⟩, hi, hst, hco, hev, hre⟩ |
        ⟨he, hi, hst, hco, hev, hre⟩
      · exact hanswer he hi (.inl ⟨rfl, hst, hco, hev, hre⟩)
      · exact hanswer he hi (.inr (.inl ⟨rfl, hst, hco, hev, hre⟩))
      · exact hanswer he hi (.inr (.inr ⟨ho, hst, hco.trans hup, hev, hre⟩))
      · rw [hendPosts (always := true) (by rw [he]; simp)]
        subst he hi hst hev hre
        exact ⟨hturn, fun t => t.takeAnswerTimeout n, rfl, State.takeAnswerTimeout_turned hslot hawait (hco.trans hup)⟩
    have hlen : posts.length ≤ 2 := by
      rw [hposts]
      split <;> simp
    have hk' : k = endedLink s n rest count := hk
    subst hk'
    refine ⟨fun hnone => hends.exec_none (Nat.le_trans (Nat.add_le_add_left (Nat.le_succ_of_le hlen) _) hroom) hnone,
      fun h t hpend hwire hstop => hends.exec_head (Nat.le_trans (Nat.add_le_add_left (Nat.succ_le_succ hlen) _) hroom)
        hpend hwire hstop⟩

end Sys2Proof.Machine
end
-- ==== Sys2Proof/Proofs/LinkTimers.lean ====
section
/-! PROOFS. Restarts, rearms and the timers of a link (O45). -/

namespace Sys2Proof.Machine

variable {s : State}

theorem exec_receiverRestart {n : LineNo} {rest : List LinkArrival} (hturn : linkTurn s n .restart rest) :
    exec (.receiverRestart n) s =
      .next (s.takeInput n LinkInput.restart.source fun t => ends (t.setLink n (t.link n).restart) []) := by
  have hnext : (s.link n).nextInput .supervisor = some (.restart, rest) := hturn.2.1
  simp only [exec, execReceiverRestart, hnext]
  rfl

theorem exec_rearm {n : LineNo} {rest : List LinkArrival} (hturn : linkTurn s n .rearm rest) :
    exec (.rearm n) s = .next (s.takeInput n LinkInput.rearm.source fun t => t.takeRearm n) := by
  have hnext : (s.link n).nextInput .supervisor = some (.rearm, rest) := hturn.2.1
  simp only [exec, execRearm, hnext]
  rfl

/-- LATCHED FLAGS of an open latch (R149). -/
theorem latchedFlagsWord_of_open {k : Link} (h : k.latchOpen = true) :
    latchedFlagsWord k = 0x8000 ||| k.latchedFlags.setWidth 16 := by
  unfold latchedFlagsWord
  rw [h]
  rfl

/-- A rearm that finds the flags seen in the latch opens it (R150). -/
theorem State.takeRearm_of_seen {n : LineNo} {rest : List LinkArrival} (h : (s.link n).flagsSeen = (s.link n).latchedFlags) :
    (s.turned n rest).takeRearm n =
      ends (s.setLink n { s.link n with arrivals := rest, latchOpen := true })
        [.post (lineWord n 21 (0x8000 ||| (s.link n).latchedFlags.setWidth 16))] := by
  have hword : latchPost n { s.link n with arrivals := rest, latchOpen := true } =
      .post (lineWord n 21 (0x8000 ||| (s.link n).latchedFlags.setWidth 16)) :=
    congrArg (postLine n 21) (latchedFlagsWord_of_open rfl)
  unfold State.takeRearm
  dsimp only
  rw [State.link_turned, if_pos h, State.setLink_turned, hword]

/-- A rearm that finds other flags seen latches them (R150). -/
theorem State.takeRearm_of_other {n : LineNo} {rest : List LinkArrival} (h : (s.link n).flagsSeen ≠ (s.link n).latchedFlags) :
    (s.turned n rest).takeRearm n =
      ends
        { s with
          links := s.links.set n
            { s.link n with arrivals := rest, latchOpen := false, latchedFlags := (s.link n).flagsSeen }
          freeCount := s.freeCount + 1 }
        [.hand
            (linkReported s n .flags 0 (longOf ((s.link n).flagsSeen.setWidth 16) ((s.link n).latchedFlags.setWidth 16))
              (longOf ((s.link n).lastSeq.setWidth 16) 1)),
          .post (lineWord n 21 ((s.link n).flagsSeen.setWidth 16))] := by
  have hword : latchPost n { s.link n with arrivals := rest, latchOpen := false, latchedFlags := (s.link n).flagsSeen } =
      .post (lineWord n 21 ((s.link n).flagsSeen.setWidth 16)) :=
    congrArg (postLine n 21) (latchedFlagsWord_of_closed rfl)
  unfold State.takeRearm
  dsimp only
  rw [State.link_turned, if_neg h, State.setLink_turned, hword]
  rfl

/-- A refresh is sent at once on a wire with nothing else to send (R144). -/
theorem State.takeRefreshExpiry_of_free {n : LineNo} {rest : List LinkArrival} (hwire : (s.link n).wire = .fill)
    (hpend : (s.link n).pending = []) (hstop : (s.link n).stopWaiting = false) :
    (s.turned n rest).takeRefreshExpiry n = ends ((s.turned n rest).sendRefresh n) [] := by
  unfold State.takeRefreshExpiry
  rw [State.link_turned]
  exact if_pos ⟨hwire, hpend, hstop⟩

/-- And is owed otherwise. -/
theorem State.takeRefreshExpiry_of_busy {n : LineNo} {rest : List LinkArrival}
    (h : (s.link n).wire ≠ .fill ∨ (s.link n).pending ≠ [] ∨ (s.link n).stopWaiting = true) :
    (s.turned n rest).takeRefreshExpiry n =
      ends (s.setLink n { s.link n with arrivals := rest, refreshOwed := true }) [] := by
  have hnot : ¬ ((s.link n).wire = .fill ∧ (s.link n).pending = [] ∧ (s.link n).stopWaiting = false) := by
    rintro ⟨hwire, hpend, hstop⟩
    rcases h with h | h | h
    · exact h hwire
    · exact h hpend
    · exact Bool.false_ne_true (hstop.symm.trans h)
  unfold State.takeRefreshExpiry
  dsimp only
  rw [State.link_turned, State.setLink_turned]
  exact if_neg hnot

/-- An UP link whose sample timer expires goes LOST (R146). -/
theorem State.takeSampleTimeout_of_up {n : LineNo} {rest : List LinkArrival} (h : (s.link n).state = .up) :
    (s.turned n rest).takeSampleTimeout n =
      ends
        { s with
          links := s.links.set n { s.link n with arrivals := rest, state := .lost, lostAt := s.clock }
          freeCount := s.freeCount + 1 }
        [.post (lineWord n 20 (wordOf (s.link n).unanswered 3)), .tell n (.stateChange .lost),
          .hand (linkReported s n .linkLost 0 (s.link n).lastArrival (longOf (s.config.word 3) 0))] := by
  unfold State.takeSampleTimeout
  dsimp only
  rw [State.link_turned, if_pos h, State.setLink_turned]
  rfl

theorem State.takeSampleTimeout_of_other {n : LineNo} {rest : List LinkArrival} (h : (s.link n).state ≠ .up) :
    (s.turned n rest).takeSampleTimeout n = ends (s.turned n rest) [] := by
  unfold State.takeSampleTimeout
  dsimp only
  rw [State.link_turned]
  exact if_neg h

/-- Settles O45. -/
theorem restartsRearmsAndTimersOfALink : Obligations.RestartsRearmsAndTimersOfALink := by
  unfold Obligations.RestartsRearmsAndTimersOfALink
  refine ⟨fun n rest s => ⟨fun hturn => ?_, fun hturn hroom => ⟨fun hseen => ?_, fun hother => ?_⟩⟩,
    fun n rest s => ⟨fun hturn => ⟨fun hwire hpend hstop => ?_, fun hbusy => ?_⟩,
      fun hturn hroom => ⟨fun hstate => ?_, fun hstate => ?_⟩⟩⟩
  · have htake : (fun t : State => ends (t.setLink n (t.link n).restart) []) (s.turned n rest) =
        ends (s.setLink n (Link.restart { s.link n with arrivals := rest })) [] := by
      dsimp only
      rw [State.link_turned, State.setLink_turned]
    rw [exec_receiverRestart hturn]
    exact congrArg _ (State.takeInput_silent hturn htake (State.noOwn_of_link (s.link_setLink_same n _) hturn.2.2))
  · rw [exec_rearm hturn]
    have htaken := State.takeInput_eq (take := fun t => t.takeRearm n) hturn (State.takeRearm_of_seen hseen) hroom
      (by exact State.noOwn_of_link (s.link_setLink_same n _) hturn.2.2)
    exact congrArg _ htaken
  · rw [exec_rearm hturn]
    have htaken := State.takeInput_eq (take := fun t => t.takeRearm n) hturn (State.takeRearm_of_other hother) hroom
      (by exact State.noOwn_of_link (State.link_of_links (s := s) rfl) hturn.2.2)
    exact congrArg _ htaken
  · exact congrArg _ (State.takeInput_silent (take := fun t => t.takeRefreshExpiry n) hturn
      (State.takeRefreshExpiry_of_free hwire hpend hstop)
      (State.noOwn_sendRefresh (State.noOwn_of_link (s.link_turned n rest) hturn.2.2)))
  · exact congrArg _ (State.takeInput_silent (take := fun t => t.takeRefreshExpiry n) hturn
      (State.takeRefreshExpiry_of_busy hbusy) (State.noOwn_of_link (s.link_setLink_same n _) hturn.2.2))
  · exact congrArg _ (State.takeInput_lost (take := fun t => t.takeSampleTimeout n) hturn
      (State.takeSampleTimeout_of_other hstate))
  · have htaken := State.takeInput_eq (take := fun t => t.takeSampleTimeout n) hturn
      (State.takeSampleTimeout_of_up hstate) hroom (by exact State.noOwn_of_link (State.link_of_links (s := s) rfl) hturn.2.2)
    exact congrArg _ htaken

end Sys2Proof.Machine
end
-- ==== Sys2Proof/Proofs/ReportWriter.lean ====
section
/-! PROOFS. The Report Writer (O46, O47): what becomes of a report, and the writing and the placing of the ring. -/

namespace Sys2Proof.Machine

variable {s : State}

/-! ### O46: reports -/

/-- A HOLD_IMPOSED raises COMMUNICATION by its reason (R122). -/
theorem alertClass_of_holdImposed {r : Report} (h : r.kind = .holdImposed) :
    r.alertClass = if r.detail = 0x11 ∨ r.detail = 0x12 then .communication else .stageEnd := by
  have hreason (d : BitVec 7) : (d.setWidth 8 = HoldReason.communication.code ∨ d.setWidth 8 = HoldReason.surfaceLeak.code) ↔
      (d = 0x11 ∨ d = 0x12) := by
    revert d
    decide
  unfold Report.alertClass
  rw [h]
  exact if_congr (hreason r.detail) rfl rfl

theorem exec_report {r : Report} {rest : List Report} (h : s.report.handed = r :: rest) :
    exec .report s = .next (State.takeReport { s with report := { s.report with handed := rest } } r) := by
  simp only [exec, execReport, h]

/-- A report that is kept without loss. -/
theorem State.takeReport_of_kept {r : Report} {l : List Report} (h : keepReport s.report.pending r = (l, false)) :
    s.takeReport r =
      { s with
        report := { s.report with pending := l }
        alert := { s.alert with raises := s.alert.raises ++ [⟨r.alertClass, r.kind == .trip⟩] } } := by
  unfold State.takeReport
  rw [h]
  rfl

/-- A loss sets the lost flag and raises RING. -/
theorem State.takeReport_of_lost {r : Report} {l : List Report} (h : keepReport s.report.pending r = (l, true)) :
    s.takeReport r =
      { s with
        report := { s.report with pending := l, lost := true }
        alert := { s.alert with
          raises := s.alert.raises ++ [⟨r.alertClass, r.kind == .trip⟩, ⟨.ring, false⟩] } } := by
  unfold State.takeReport
  rw [h]
  simp [State.raise, Report.raised]

theorem keepReport_of_room {l : List Report} {r : Report} (h : l.length < 8) : keepReport l r = (l ++ [r], false) := if_pos h

theorem keepReport_of_lost {l : List Report} {r : Report} (h : l.length = 8)
    (hr : r.kind ≠ .trip ∨ ∀ x ∈ l, x.kind = .trip) : keepReport l r = (l, true) := by
  refine (if_neg (by rw [h]; decide)).trans (if_neg fun hc => ?_)
  obtain ⟨htrip, hany⟩ := hc
  obtain ⟨x, hx, hne⟩ := List.any_eq_true.mp hany
  rcases hr with hr | hr
  · exact hr htrip
  · rw [hr x hx] at hne
    cases hne

/-- The newest record that is no TRIP report gives its place (log 20). -/
theorem dropNewestOther_append {before after : List Report} {x : Report} (hx : x.kind ≠ .trip)
    (hafter : ∀ y ∈ after, y.kind = .trip) : dropNewestOther (before ++ x :: after) = before ++ after := by
  have hextract := extractFirst_append (fun r : Report => r.kind != .trip) after.reverse before.reverse x
    (by simpa using hx) (fun y hy => by simp [hafter y (List.mem_reverse.mp hy)])
  have hreverse : (before ++ x :: after).reverse = after.reverse ++ x :: before.reverse := by simp
  unfold dropNewestOther
  rw [hreverse, hextract]
  simp

theorem keepReport_of_trip {before after : List Report} {x r : Report} (hlen : (before ++ x :: after).length = 8)
    (hr : r.kind = .trip) (hx : x.kind ≠ .trip) (hafter : ∀ y ∈ after, y.kind = .trip) :
    keepReport (before ++ x :: after) r = (before ++ after ++ [r], true) := by
  have hany : (before ++ x :: after).any (fun x => x.kind != .trip) = true :=
    List.any_eq_true.mpr ⟨x, by simp, by simpa using hx⟩
  rw [← dropNewestOther_append hx hafter]
  exact (if_neg (by rw [hlen]; decide)).trans (if_pos ⟨hr, hany⟩)

theorem alertClass_of_trip {r : Report} (h : r.kind = .trip) : r.alertClass = .trip := by
  unfold Report.alertClass
  rw [h]

/-- Settles O46. -/
theorem aReportIsKeptOrLost : Obligations.AReportIsKeptOrLost := by
  unfold Obligations.AReportIsKeptOrLost
  refine ⟨fun r => ⟨alertClass_of_trip, fun h => ?_, fun h => ?_, fun h => ?_, fun h => ?_, alertClass_of_holdImposed,
    fun h => ?_⟩, fun r rest s hr => ⟨fun hlen => ?_, fun hlen hlost => ?_, fun before after x hlen htrip hsplit hx hafter => ?_⟩⟩
  · unfold Report.alertClass
    rw [h]
  · unfold Report.alertClass
    rcases h with h | h | h | h <;> rw [h]
  · unfold Report.alertClass
    rcases h with h | h | h | h | h <;> rw [h]
  · unfold Report.alertClass
    rcases h with h | h | h <;> rw [h]
  · unfold Report.alertClass
    rw [h]
  · rw [exec_report hr]
    exact congrArg _ (State.takeReport_of_kept (keepReport_of_room hlen))
  · rw [exec_report hr]
    exact congrArg _ (State.takeReport_of_lost (keepReport_of_lost hlen hlost))
  · rw [hsplit] at hlen
    have hkept : keepReport s.report.pending r = (before ++ after ++ [r], true) := by
      rw [hsplit]
      exact keepReport_of_trip hlen htrip hx hafter
    have htaken := State.takeReport_of_lost (s := { s with report := { s.report with handed := rest } }) hkept
    rw [alertClass_of_trip htrip, htrip] at htaken
    rw [exec_report hr]
    exact congrArg _ htaken

/-! ### O47: words -/

theorem longOf_toNat (low high : Word) : (longOf low high).toNat = low.toNat + 65536 * high.toNat := by
  unfold longOf
  rw [BitVec.toNat_append, ← Nat.shiftLeft_add_eq_or_of_lt low.isLt, Nat.shiftLeft_eq]
  omega

theorem lowWord_longOf (low high : Word) : lowWord (longOf low high) = low := by
  refine BitVec.eq_of_toNat_eq ?_
  unfold lowWord
  rw [BitVec.toNat_setWidth, longOf_toNat, Nat.add_mul_mod_self_left, Nat.mod_eq_of_lt low.isLt]

theorem highWord_longOf (low high : Word) : highWord (longOf low high) = high := by
  refine BitVec.eq_of_toNat_eq ?_
  have hlow := low.isLt
  have hhigh := high.isLt
  unfold highWord
  rw [BitVec.toNat_setWidth, BitVec.toNat_ushiftRight, longOf_toNat, Nat.shiftRight_eq_div_pow]
  omega

theorem wordOf_toNat (h l : Byte) : (wordOf h l).toNat = l.toNat + 256 * h.toNat := by
  unfold wordOf
  rw [BitVec.toNat_append, ← Nat.shiftLeft_add_eq_or_of_lt l.isLt, Nat.shiftLeft_eq]
  omega

/-! ### O47: the ring -/

/-- The record in flight is written (R164, R165). -/
theorem State.recordWritten_of_ring {ring : Ring} (hring : s.report.ring = some ring) (hcons : s.report.consumer < ring.size) :
    s.recordWritten =
      { s with
        report := { s.report with inFlight := none }
        alert := if 3 * (ring.size - 1) / 4 ≤ (s.report.producer + ring.size - s.report.consumer) % ring.size
          then { s.alert with raises := s.alert.raises ++ [⟨.ring, false⟩] } else s.alert } := by
  unfold State.recordWritten
  rw [hring]
  dsimp only
  rw [modDiff_eq hcons]
  by_cases h : 3 * (ring.size - 1) / 4 ≤ (s.report.producer + ring.size - s.report.consumer) % ring.size
  · rw [if_pos h]
    exact if_pos h
  · rw [if_neg h]
    exact if_neg h

theorem exec_ringRecordWrite {ring : Ring} {rec : Report} {rest : List Report} (hring : s.report.ring = some ring)
    (hpend : s.report.pending = rec :: rest) :
    exec .ringRecordWrite s =
      .next (if s.busy .report || !s.report.ready || !s.report.room ring then s else s.writeRecord ring rec rest) := by
  simp only [exec, execRingRecordWrite, hring, hpend]

/-- The posts of a record and of the producer index. -/
theorem postsOf_recordActs (ring : Ring) (index : Nat) (rec : Report) {at_ : Nat → Addr}
    (hat : ∀ k, at_ k = BitVec.ofNat 20 (ring.base + 16 * index + 2 * k)) :
    postsOf (recordActs ring index rec) =
      [⟨at_ 0, rec.words.getD 0 0⟩, ⟨at_ 1, rec.words.getD 1 0⟩, ⟨at_ 2, rec.words.getD 2 0⟩, ⟨at_ 3, rec.words.getD 3 0⟩,
        ⟨at_ 4, rec.words.getD 4 0⟩, ⟨at_ 5, rec.words.getD 5 0⟩, ⟨at_ 6, rec.words.getD 6 0⟩, ⟨at_ 7, rec.words.getD 7 0⟩,
        statusWord 9 (BitVec.ofNat 16 ((index + 1) % ring.size))] := by
  simp only [hat]
  rfl

theorem othersOf_recordActs (ring : Ring) (index : Nat) (rec : Report) :
    othersOf (recordActs ring index rec) = [.setProducer ((index + 1) % ring.size), .recordWritten] := rfl

/-- The record of the head of the pending list, with the lost flag in it (R164). -/
def State.marked (s : State) (rec : Report) : Report := { rec with lostBefore := s.report.lost }

/-- The state in which the head record is in flight. -/
def State.recording (s : State) (rec : Report) (rest : List Report) : State :=
  { s with report := { s.report with pending := rest, inFlight := some (s.marked rec), lost := false } }

/-- What the writing of a record leaves besides its posts. -/
theorem State.foldl_recordActs {ring : Ring} {rec : Report} {rest : List Report} {next : Nat}
    (hflight : s.report.inFlight = none) (hring : s.report.ring = some ring) (hcons : s.report.consumer < ring.size) :
    [Act.setProducer next, .recordWritten].foldl State.perform (s.recording rec rest) =
      { s with
        report := { s.report with pending := rest, lost := false, producer := next }
        alert := if 3 * (ring.size - 1) / 4 ≤ (next + ring.size - s.report.consumer) % ring.size
          then { s.alert with raises := s.alert.raises ++ [⟨.ring, false⟩] } else s.alert } := by
  have hwritten := State.recordWritten_of_ring (s := (s.recording rec rest).perform (.setProducer next)) (ring := ring) hring hcons
  refine hwritten.trans ?_
  rw [← hflight]
  rfl

/-- A placement may be made (R166). -/
theorem State.mayPlace_of (hplace : s.report.placement = true) (hflight : s.report.inFlight = none)
    (hloaded : ∀ r ∈ s.report.handed, r.kind ≠ .configLoaded)
    (hcycle : ∀ w, s.cycle = .write w → wordAddr w.addr ≠ statusAddr 5)
    (hold : ∀ old, s.oldRing = some old → ∀ p ∈ s.queue, old.contains p.addr.toNat = false) : s.mayPlace = true := by
  have hreport : s.report.loadReportWaits = false := by
    simpa [ReportUnit.loadReportWaits] using hloaded
  have hwaits : s.consumerWaits = false := by
    unfold State.consumerWaits
    split
    · next w hw => exact beq_eq_false_iff_ne.mpr (hcycle w hw)
    · rfl
  have hqueued : s.oldRingQueued = false := by
    unfold State.oldRingQueued
    split
    · next old ho => simpa [queuedIn] using hold old ho
    · rfl
  unfold State.mayPlace
  rw [hplace, hflight, hreport, hwaits, hqueued]
  rfl

theorem State.mayPlace_of_waiting (h : ∃ r ∈ s.report.handed, r.kind = .configLoaded) : s.mayPlace = false := by
  have hreport : s.report.loadReportWaits = true := by
    simpa [ReportUnit.loadReportWaits] using h
  unfold State.mayPlace
  rw [hreport]
  simp

/-- Settles O47. -/
theorem theRingTakesRecordsAndIsPlaced : Obligations.TheRingTakesRecordsAndIsPlaced := by
  unfold Obligations.TheRingTakesRecordsAndIsPlaced
  refine ⟨by decide, fun low high l h => ⟨longOf_toNat low high, lowWord_longOf low high, highWord_longOf low high,
    wordOf_toNat h l, lowByte_wordOf h l, highByte_wordOf h l⟩,
    fun s hb hflight => ⟨fun ring rec rest hring hpend hpaused hplace hcons =>
      ⟨fun hfull => ?_, fun next base at_ w hnext hne hroom hbase hat hw => ?_⟩, fun hloaded => ?_,
      fun hplace hroom hloaded hcycle hold => ?_⟩⟩
  · rw [exec_ringRecordWrite hring hpend, if_pos (by simp [ReportUnit.room, hfull])]
  · have hready : ¬ (s.busy .report || !s.report.ready || !s.report.room ring) = true := by
      have hroom' : s.report.room ring = true := by
        unfold ReportUnit.room
        rw [← hnext]
        exact bne_iff_ne.mpr hne
      rw [hb, hroom', ReportUnit.ready, hflight, hpaused, hplace]
      decide
    subst hbase hnext hw
    have hop := State.operate_eq (s := s.recording rec rest) .report (recordActs ring s.report.producer (s.marked rec))
      (by rw [postsOf_recordActs ring _ _ hat]; exact hroom)
    rw [postsOf_recordActs ring _ _ hat, othersOf_recordActs, State.foldl_recordActs hflight hring hcons] at hop
    rw [exec_ringRecordWrite hring hpend, if_neg hready]
    exact congrArg _ hop
  · have hno : (s.busy .report || !s.mayPlace) = true := by
      rw [State.mayPlace_of_waiting hloaded]
      simp
    exact congrArg Host.Outcome.next (if_pos hno)
  · have hyes : ¬ (s.busy .report || !s.mayPlace) = true := by
      rw [State.mayPlace_of hplace hflight hloaded hcycle hold, hb]
      decide
    exact congrArg Host.Outcome.next ((if_neg hyes).trans (State.operate_eq
      (s := { s with
        oldRing := none
        report := { s.report with ring := s.config.image.map ringOf, producer := 0, consumer := 0 } })
      .report [.post ⟨statusAddr 9, 0⟩, .post ⟨statusAddr 5, 0⟩, .placed] hroom))

end Sys2Proof.Machine
end
-- ==== Sys2Proof/Proofs/Loads.lean ====
section
/-! PROOFS. The Configuration Unit: the start of a load (O48), and its checks in order (O49). -/

namespace Sys2Proof.Machine

variable {s : State}

/-! ### O48: LOAD_CONFIG -/

/-- An operation of the Configuration Unit with room for its posts. -/
theorem State.operation_config_eq (acts : List Act) (h : s.room (postsOf acts).length) :
    s.operation .config acts = State.flushAll (((othersOf acts).foldl State.perform s).postAll (postsOf acts)) := by
  unfold State.operation
  rw [State.operate_eq .config acts h]
  exact rfl

/-- Nothing follows where no controller has an event of its own. -/
theorem State.operation_config_of_links {t : State} {acts : List Act} {ps : List Post} (h : s.room (postsOf acts).length)
    (hps : postsOf acts = ps) (ht : (othersOf acts).foldl State.perform s = t) (hn : ∀ n, t.noOwn n) :
    s.operation .config acts = t.postAll ps := by
  rw [State.operation_config_eq acts h, hps, ht]
  exact State.flushAll_of_noOwn fun n => State.noOwn_postAll ps (hn n)

theorem State.noOwn_of_links {t : State} (h : t.links = s.links) (hn : ∀ n, s.noOwn n) (n : LineNo) : t.noOwn n := by
  refine State.noOwn_of_link ?_ (hn n)
  unfold State.link
  rw [h]

theorem exec_loadConfig (hc : s.cycle = .idle) (hb : s.busy .config = false) (arg : Byte) :
    exec (.loadConfig arg) s = .next (s.taking 0xFF840 (wordOf 4 arg)).takeLoadConfig := by
  refine congrArg Host.Outcome.next ?_
  unfold State.presentGuard
  rw [if_pos rfl, hb, State.present_idle _ _ _ hc]
  rfl

theorem State.loadBusy_iff :
    s.loadBusy = true ↔ s.config.load = .loading ∨ s.config.load = .loaded ∧ s.report.placement = true := by
  simp [State.loadBusy]

/-- Settles O48: the state that LOAD_CONFIG leaves, refused or started, has no controller event to take, so that the operation is
its posts. -/
theorem loadConfigStartsALoad : Obligations.LoadConfigStartsALoad := by
  unfold Obligations.LoadConfigStartsALoad
  refine fun arg s hc hb hn hroom => ⟨fun hbusy => ?_, fun hloading hplaced => ?_⟩
  · have hword : guardPost 0x04 0 .busy = .post (statusWord 1 0x0405) := by
      rw [guardPost_eq]
      rfl
    have htaking : (s.taking 0xFF840 (wordOf 4 arg)).loadBusy = true := State.loadBusy_iff.mpr hbusy
    have hop := State.operation_config_of_links (s := s.taking 0xFF840 (wordOf 4 arg))
      (acts := [.post (statusWord 1 0x0405), .ask]) (Nat.le_trans (Nat.le_succ _) hroom) rfl rfl
      (State.noOwn_of_links (s := s) rfl hn)
    rw [exec_loadConfig hc hb, State.takeLoadConfig, if_pos htaking, hword, hop]
    exact rfl
  · have hnot : ¬ (s.taking 0xFF840 (wordOf 4 arg)).loadBusy = true := by
      rw [State.loadBusy_iff]
      rintro (h | ⟨h, hp⟩)
      · exact hloading h
      · rcases hplaced with h' | h'
        · exact h' h
        · exact Bool.false_ne_true (h'.symm.trans hp)
    have hword : guardPost 0x04 0 .inProgress = .post (statusWord 1 0x0402) := by
      rw [guardPost_eq]
      rfl
    have hstate : loadStatePost .loading = .post (statusWord 4 1) := rfl
    have hop := State.operation_config_of_links
      (s := { s.taking 0xFF840 (wordOf 4 arg) with
        config := { s.config with load := .loading, loadImage := some (Vector.replicate 12 0) }
        jobs := s.jobs ++ [.load 0]
        report := { s.report with paused := true } })
      (acts := [.post (statusWord 4 1), .post (statusWord 1 0x0402), .ask]) hroom rfl rfl
      (State.noOwn_of_links (s := s) rfl hn)
    rw [exec_loadConfig hc hb, State.takeLoadConfig, if_neg hnot, hword, hstate]
    exact congrArg _ hop

/-! ### The checks of an image (R168, R171, R172) -/

theorem loadFailure_of_sum {i : Vector Word 12} (h : checkSum i.toList ≠ 0) :
    s.loadFailure i = some ⟨11, 1, checkSum i.toList⟩ := by
  have hcheck : checkFailure i = some ⟨11, 1, checkSum i.toList⟩ := if_neg h
  unfold State.loadFailure
  rw [hcheck]
  rfl

/-- The words whose ranges are checked, in order. -/
def rangedWords : List (Fin 12) := [0, 1, 2, 3, 4, 5, 6, 7, 8, 9, 10]

theorem rangedWords_getElem (j : Nat) (hj : j < rangedWords.length) :
    rangedWords[j] = ⟨j, Nat.lt_trans hj (by decide)⟩ := by
  have hj' : j < 11 := hj
  interval_cases j <;> rfl

theorem rangeFailure_eq (i : Vector Word 12) :
    rangeFailure i = (rangedWords.find? fun k => !wordInRange k.val i[k]).map fun k => ⟨k.val, 2, i[k]⟩ := rfl

/-- The first word outside its range fails (R171). -/
theorem rangeFailure_of_first {i : Vector Word 12} {k : Fin 12} (hk : k.val < 11) (hfails : ¬ configWordHolds k.val i[k])
    (hfirst : ∀ j : Fin 12, j.val < k.val → configWordHolds j.val i[j]) : rangeFailure i = some ⟨k.val, 2, i[k]⟩ := by
  have hfind : (rangedWords.find? fun k => !wordInRange k.val i[k]) = some k := by
    rw [List.find?_eq_some_iff_getElem]
    refine ⟨?_, k.val, hk, rangedWords_getElem k.val hk, fun j hj => ?_⟩
    · have hrange := (wordInRange_iff k.val i[k] hk).not.mpr hfails
      simpa using hrange
    · rw [rangedWords_getElem j (Nat.lt_trans hj hk)]
      have hrange := (wordInRange_iff j i[(⟨j, Nat.lt_trans hj k.isLt⟩ : Fin 12)] (Nat.lt_trans hj hk)).mpr
        (hfirst ⟨j, Nat.lt_trans hj k.isLt⟩ hj)
      simpa using hrange
  rw [rangeFailure_eq, hfind]
  rfl

theorem rangeFailure_of_all {i : Vector Word 12} (h : ∀ j : Fin 12, j.val < 11 → configWordHolds j.val i[j]) :
    rangeFailure i = none := by
  have hranged : ∀ k ∈ rangedWords, k.val < 11 := by decide
  rw [rangeFailure_eq, Option.map_eq_none_iff, List.find?_eq_none]
  intro k hk
  have hrange := (wordInRange_iff k.val i[k] (hranged k hk)).mpr (h k (hranged k hk))
  simpa using hrange

/-- The ring and the table meet where they have an address in common (R3, R171); a ring in its range is not empty. -/
theorem ringMeetsTable_iff {i : Vector Word 12} (hsize : 16 ≤ i[10].toNat) : ringMeetsTable i = true ↔ areasMeet i := by
  unfold ringMeetsTable tableOf areasMeet
  by_cases h8 : i[8] = 0xFFFF
  · rw [if_pos h8]
    exact ⟨nofun, fun h => absurd h8 h.1⟩
  · rw [if_neg h8]
    change (decide (i[9].toNat * 16 < i[8].toNat * 2048 + 6144) &&
      decide (i[8].toNat * 2048 < i[9].toNat * 16 + 16 * i[10].toNat)) = true ↔ _
    rw [Bool.and_eq_true, decide_eq_true_eq, decide_eq_true_eq]
    refine ⟨fun h => ⟨h8, max (i[8].toNat * 2048) (i[9].toNat * 16), ?_⟩, fun h => ?_⟩
    · omega
    · obtain ⟨-, a, h⟩ := h
      omega

theorem lineInUse_iff (s : State) (n : LineNo) : s.lineInUse n = true ↔ inUse s n := by
  unfold State.lineInUse Link.stopOutstanding inUse
  cases (s.link n).inFlight <;> simp

theorem mem_allLines (n : LineNo) : n ∈ allLines := by
  revert n
  decide

/-- No line in use fails the fourth step (R172). -/
theorem inUseFailure_of_none {i : Vector Word 12} (h : ∀ n, ¬ inUse s n) : s.inUseFailure i = none := by
  refine if_pos (List.filter_eq_nil_iff.mpr fun n _ => ?_)
  rw [lineInUse_iff]
  exact h n

/-- With a line in use the rate, the sync code, the table base and the enable flags are compared in that order. -/
theorem inUseFailure_of_used {i : Vector Word 12} {used : LineNo} (h : inUse s used) :
    s.inUseFailure i =
      if i[1] ≠ s.config.word 1 then some ⟨1, 4, i[1]⟩
      else if lowByte i[2] ≠ lowByte (s.config.word 2) then some ⟨2, 4, i[2]⟩
      else if i[8] ≠ s.config.word 8 then some ⟨8, 4, i[8]⟩
      else if (allLines.filter s.lineInUse).any fun n => i[0].getLsbD n.val != s.config.enabled n then some ⟨0, 4, i[0]⟩
      else none := by
  have hmem : used ∈ allLines.filter s.lineInUse := List.mem_filter.mpr ⟨mem_allLines used, (lineInUse_iff s used).mpr h⟩
  exact if_neg (List.ne_nil_of_mem hmem)

theorem anyDisagrees_iff (s : State) (i : Vector Word 12) :
    ((allLines.filter s.lineInUse).any fun n => i[0].getLsbD n.val != s.config.enabled n) = true ↔
      ∃ n, inUse s n ∧ i[0].getLsbD n.val ≠ s.config.enabled n := by
  rw [List.any_eq_true]
  refine exists_congr fun n => ?_
  rw [List.mem_filter, lineInUse_iff, bne_iff_ne]
  exact ⟨fun h => ⟨h.1.2, h.2⟩, fun h => ⟨⟨mem_allLines n, h.1⟩, h.2⟩⟩

/-- The first three steps passed. -/
theorem loadFailure_of_passed {i : Vector Word 12} (hsum : checkSum i.toList = 0) (hrange : rangeFailure i = none)
    (hoverlap : overlapFailure i = none) : s.loadFailure i = s.inUseFailure i := by
  unfold State.loadFailure
  rw [(checkFailure_eq_none_iff i).mpr hsum, hrange, hoverlap]
  rfl

theorem loadFailure_of_overlap {i : Vector Word 12} {f : LoadFailure} (hsum : checkSum i.toList = 0) (hrange : rangeFailure i = none)
    (hoverlap : overlapFailure i = some f) : s.loadFailure i = some f := by
  unfold State.loadFailure
  rw [(checkFailure_eq_none_iff i).mpr hsum, hrange, hoverlap]
  rfl

/-- The checks of O49 in order. -/
theorem loadFailure_checks (s : State) (i : Vector Word 12) :
    (checkSum i.toList ≠ 0 → s.loadFailure i = some ⟨11, 1, checkSum i.toList⟩) ∧
    (checkSum i.toList = 0 →
      (∀ k : Fin 12, k.val < 11 → ¬ configWordHolds k.val i[k] →
        (∀ j : Fin 12, j.val < k.val → configWordHolds j.val i[j]) → s.loadFailure i = some ⟨k.val, 2, i[k]⟩) ∧
      ((∀ j : Fin 12, j.val < 11 → configWordHolds j.val i[j]) →
        (0xFF800 < i[9].toNat * 16 + i[10].toNat * 16 → s.loadFailure i = some ⟨10, 3, i[10]⟩) ∧
        (i[9].toNat * 16 + i[10].toNat * 16 ≤ 0xFF800 →
          (areasMeet i → s.loadFailure i = some ⟨9, 3, i[9]⟩) ∧
          (¬ areasMeet i →
            ((∀ n, ¬ inUse s n) → s.loadFailure i = none) ∧
            ∀ used : LineNo, inUse s used →
              (i[1] ≠ s.config.word 1 → s.loadFailure i = some ⟨1, 4, i[1]⟩) ∧
              (i[1] = s.config.word 1 → lowByte i[2] ≠ lowByte (s.config.word 2) →
                s.loadFailure i = some ⟨2, 4, i[2]⟩) ∧
              (i[1] = s.config.word 1 → lowByte i[2] = lowByte (s.config.word 2) →
                (i[8] ≠ s.config.word 8 → s.loadFailure i = some ⟨8, 4, i[8]⟩) ∧
                (i[8] = s.config.word 8 →
                  (i[0].getLsbD used.val ≠ s.config.enabled used → s.loadFailure i = some ⟨0, 4, i[0]⟩) ∧
                  ((∀ n : LineNo, inUse s n → i[0].getLsbD n.val = s.config.enabled n) →
                    s.loadFailure i = none))))))) := by
  refine ⟨loadFailure_of_sum, fun hsum => ⟨fun k hk hfails hfirst => ?_, fun hall => ?_⟩⟩
  · unfold State.loadFailure
    rw [(checkFailure_eq_none_iff i).mpr hsum, rangeFailure_of_first hk hfails hfirst]
    rfl
  have hrange := rangeFailure_of_all hall
  have hsize : 16 ≤ i[10].toNat := ((hall 10 (by decide)).2.2.2.2.2.2.2.2.2.2 rfl).1
  have hextent : (ringOf i).base + 16 * (ringOf i).size = i[9].toNat * 16 + i[10].toNat * 16 :=
    congrArg (i[9].toNat * 16 + ·) (Nat.mul_comm ..)
  refine ⟨fun hover => ?_, fun hfits => ⟨fun hmeet => ?_, fun hapart => ?_⟩⟩
  · exact loadFailure_of_overlap hsum hrange (if_pos (by rw [hextent]; exact hover))
  · exact loadFailure_of_overlap hsum hrange ((if_neg (by rw [hextent]; exact Nat.not_lt.mpr hfits)).trans
      (if_pos ((ringMeetsTable_iff hsize).mpr hmeet)))
  have hpassed : s.loadFailure i = s.inUseFailure i := loadFailure_of_passed hsum hrange
    ((if_neg (by rw [hextent]; exact Nat.not_lt.mpr hfits)).trans (if_neg ((ringMeetsTable_iff hsize).not.mpr hapart)))
  rw [hpassed]
  refine ⟨inUseFailure_of_none, fun used hused => ?_⟩
  rw [inUseFailure_of_used hused]
  refine ⟨fun h1 => if_pos h1, fun h1 h2 => (if_neg (not_not.mpr h1)).trans (if_pos h2),
    fun h1 h2 => ⟨fun h8 => ?_, fun h8 => ⟨fun h0 => ?_, fun h0 => ?_⟩⟩⟩
  · exact (if_neg (not_not.mpr h1)).trans ((if_neg (not_not.mpr h2)).trans (if_pos h8))
  · exact (if_neg (not_not.mpr h1)).trans ((if_neg (not_not.mpr h2)).trans ((if_neg (not_not.mpr h8)).trans
      (if_pos ((anyDisagrees_iff s i).mpr ⟨used, hused, h0⟩))))
  · refine (if_neg (not_not.mpr h1)).trans ((if_neg (not_not.mpr h2)).trans ((if_neg (not_not.mpr h8)).trans
      (if_neg ((anyDisagrees_iff s i).not.mpr ?_))))
    rintro ⟨n, hn, hne⟩
    exact hne (h0 n hn)

end Sys2Proof.Machine
end
-- ==== Sys2Proof/Proofs/LoadEnds.lean ====
section
/-! PROOFS. The two ends of a load (O49). -/

namespace Sys2Proof.Machine

variable {s : State}

theorem exec_loadJobComplete {k : Nat} (hb : s.busy .config = false) (hdone : s.config.jobDone = k + 1) :
    exec .loadJobComplete s = .next (State.endLoad { s with config := { s.config with jobDone := k } }) := by
  simp only [exec, execLoadJobComplete, hb, hdone]
  exact rfl

/-- The Configuration Unit takes the end of its load (R171). -/
theorem State.endLoad_of_failure {i : Vector Word 12} {f : LoadFailure} (himage : s.config.loadImage = some i)
    (h : s.loadFailure i = some f) : s.endLoad = s.rejectLoad f := by
  simp only [State.endLoad, himage, h]

theorem State.endLoad_of_passed {i : Vector Word 12} (himage : s.config.loadImage = some i) (h : s.loadFailure i = none) :
    s.endLoad = s.acceptLoad i := by
  simp only [State.endLoad, himage, h]

/-- A load that failed (R173). -/
theorem State.rejectLoad_eq (f : LoadFailure) (hroom : s.room 2) (hn : ∀ n, s.noOwn n) :
    s.rejectLoad f =
      State.postAll
        { s with
          config := { s.config with load := .rejected f.word f.step, loadImage := none }
          report := { s.report with
            paused := false, placement := false, handed := s.report.handed ++ [configRejectedReport f s.clock] } }
        [statusWord 4 (loadStateWord (.rejected f.word f.step)), statusWord 1 0x0406] := by
  have hword : guardPost 0x04 0 .rejected = .post (statusWord 1 0x0406) := by
    rw [guardPost_eq]
    rfl
  have hstate : loadStatePost (.rejected f.word f.step) = .post (statusWord 4 (loadStateWord (.rejected f.word f.step))) := rfl
  have hop := State.operation_config_of_links
    (s := { s with config := { s.config with load := .rejected f.word f.step, loadImage := none } })
    (acts := [.post (statusWord 4 (loadStateWord (.rejected f.word f.step))), .post (statusWord 1 0x0406),
      .hand (configRejectedReport f s.clock), .loadEnded false]) hroom rfl rfl (State.noOwn_of_links (s := s) rfl hn)
  unfold State.rejectLoad
  dsimp only
  rw [hword, hstate]
  exact hop

/-! ### A load that passed (R174, R151) -/

/-- A link with the notice of a new image. -/
def Link.noticed (l : Link) : Link := { l with arrivals := l.arrivals ++ [⟨.notice, false⟩] }

/-- A link under image i when the sync code was `old`: a receiver of a link that is not OFF hunts for a changed one. -/
def Link.underImage (old : Byte) (i : Vector Word 12) (l : Link) : Link :=
  { l with
    arrivals := l.arrivals ++ [⟨.notice, false⟩]
    receiver := if l.state ≠ .off ∧ lowByte i[2] ≠ old then .hunting else l.receiver
    huntBits := if l.state ≠ .off ∧ lowByte i[2] ≠ old then [] else l.huntBits
    assembly := if l.state ≠ .off ∧ lowByte i[2] ≠ old then [] else l.assembly }

theorem Link.underImage_same {old : Byte} {i : Vector Word 12} (h : lowByte i[2] = old) (l : Link) :
    l.underImage old i = l.noticed := by
  have hnot : ¬ (l.state ≠ .off ∧ lowByte i[2] ≠ old) := fun hand => hand.2 h
  unfold Link.underImage
  rw [if_neg hnot, if_neg hnot, if_neg hnot]
  rfl

theorem Link.underImage_changed {old : Byte} {i : Vector Word 12} (h : lowByte i[2] ≠ old) (l : Link) :
    l.underImage old i = l.newSync.noticed := by
  unfold Link.underImage Link.newSync
  by_cases hoff : l.state = .off
  · have hnot : ¬ (l.state ≠ .off ∧ lowByte i[2] ≠ old) := fun hand => hand.1 hoff
    rw [if_neg hnot, if_neg hnot, if_neg hnot, if_pos hoff]
    rfl
  · rw [if_pos ⟨hoff, h⟩, if_pos ⟨hoff, h⟩, if_pos ⟨hoff, h⟩, if_neg hoff]
    rfl

/-- The links under a new image, each with its notice (R151, R174). -/
theorem State.noticed_resyncLinks (s : State) (i : Vector Word 12) :
    (s.resyncLinks i).map Link.noticed = s.links.map (Link.underImage s.config.syncCode i) := by
  unfold State.resyncLinks
  by_cases hsync : lowByte i[2] = s.config.syncCode
  · rw [if_pos hsync]
    exact congrArg (s.links.map ·) (funext fun l => (Link.underImage_same hsync l).symm)
  · rw [if_neg hsync, Vector.map_map]
    exact congrArg (s.links.map ·) (funext fun l => (Link.underImage_changed hsync l).symm)

/-- A load that passed (R174). -/
theorem State.acceptLoad_eq (i : Vector Word 12) (hroom : s.room 2) :
    s.acceptLoad i =
      State.flushAll (State.postAll
        { s with
          config := { s.config with image := some i, load := .loaded, loadImage := none }
          oldRing := s.oldExtent i
          alert := { s.alert with loadNotices := s.alert.loadNotices + 1 }
          report := { s.report with
            paused := false, placement := s.ringMoves i, handed := s.report.handed ++ [configLoadedReport i s.clock] }
          links := (s.resyncLinks i).map Link.noticed }
        [statusWord 4 2, statusWord 1 0x0401]) := by
  have hword : guardPost 0x04 0 .done = .post (statusWord 1 0x0401) := by
    rw [guardPost_eq]
    rfl
  have hstate : loadStatePost .loaded = .post (statusWord 4 2) := rfl
  have hop := State.operation_config_eq
    (s := { s with
      config := { s.config with image := some i, load := .loaded, loadImage := none }
      oldRing := s.oldExtent i
      links := s.resyncLinks i })
    [.post (statusWord 4 2), .post (statusWord 1 0x0401), .hand (configLoadedReport i s.clock), .loadNotice,
      .loadEnded (s.ringMoves i), .notifyLinks] hroom
  unfold State.acceptLoad
  rw [hword, hstate, hop]
  exact congrArg State.flushAll rfl

theorem State.ringMoves_eq {moved : Bool} {i : Vector Word 12} (h : moved = true ↔ s.config.image.map ringOf ≠ some (ringOf i)) :
    s.ringMoves i = moved := by
  rw [Bool.eq_iff_iff, h]
  exact bne_iff_ne

/-- Settles O49: the checks are `loadFailure_checks`; the end of a load is a rejection or an acceptance by their result. -/
theorem aLoadIsRejectedOrAccepted : Obligations.ALoadIsRejectedOrAccepted := by
  unfold Obligations.ALoadIsRejectedOrAccepted
  refine ⟨loadFailure_checks, fun k i s hb hroom hdone himage => ⟨fun f hfail hn => ?_, fun hpass moved hmoved => ?_⟩⟩
  · have hend := State.endLoad_of_failure (s := { s with config := { s.config with jobDone := k } }) himage hfail
    have hreject := State.rejectLoad_eq (s := { s with config := { s.config with jobDone := k } }) f hroom
      (State.noOwn_of_links (s := s) rfl hn)
    rw [exec_loadJobComplete hb hdone, hend, hreject]
    exact rfl
  · have hend := State.endLoad_of_passed (s := { s with config := { s.config with jobDone := k } }) himage hpass
    have haccept := State.acceptLoad_eq (s := { s with config := { s.config with jobDone := k } }) i hroom
    have hmoves : State.ringMoves { s with config := { s.config with jobDone := k } } i = moved := State.ringMoves_eq hmoved
    have hextent : State.oldExtent { s with config := { s.config with jobDone := k } } i =
        if moved then s.config.image.map ringOf else none := by
      unfold State.oldExtent
      rw [hmoves]
    have hlinks := State.noticed_resyncLinks { s with config := { s.config with jobDone := k } } i
    rw [exec_loadJobComplete hb hdone, hend, haccept, hmoves, hextent, hlinks]
    exact rfl

end Sys2Proof.Machine
end
-- ==== Sys2Proof/Proofs/ImageNotices.lean ====
section
/-! PROOFS. The notice of a new image at a Field Link Controller (O50). -/

namespace Sys2Proof.Machine

variable {s : State} {n : LineNo} {k : Link}

/-! ### The notice as it is taken (R146, R147, R151) -/

/-- An OFF link of an enabled line starts to hunt. -/
theorem State.imageNotice_enable (hon : s.config.enabled n = true) (hoff : k.state = .off) :
    (s.setLink n k).imageNotice n =
      (s.setLink n (k.enable s.config),
        endActs n [lineWord n 20 (wordOf k.unanswered 1)] [] [.stateChange .hunting]) := by
  unfold State.imageNotice
  dsimp only
  rw [State.link_setLink_same, State.setLink_setLink]
  exact (if_pos hon).trans (if_pos hoff)

/-- A link that stays on takes the new rate while it sends fill. -/
theorem State.imageNotice_rate (hon : s.config.enabled n = true) (hoff : k.state ≠ .off) :
    (s.setLink n k).imageNotice n =
      (s.setLink n { k with wireRate := if k.wire = .fill then s.config.word 1 else k.wireRate }, []) := by
  unfold State.imageNotice
  dsimp only
  rw [State.link_setLink_same, State.setLink_setLink]
  refine ((if_pos hon).trans (if_neg hoff)).trans ?_
  by_cases hfill : k.wire = .fill
  · rw [if_pos hfill, if_pos hfill, State.setLink_setLink]
    rfl
  · rw [if_neg hfill, if_neg hfill]

theorem State.imageNotice_stays_off (hon : s.config.enabled n = false) (hoff : k.state = .off) :
    (s.setLink n k).imageNotice n = (s.setLink n k, []) := by
  have hnot : ¬ (s.setLink n k).config.enabled n = true := Bool.eq_false_iff.mp hon
  unfold State.imageNotice
  dsimp only
  rw [State.link_setLink_same]
  exact (if_neg hnot).trans (if_pos hoff)

/-- The command in the slot of a link that goes OFF is superseded (R148). -/
def droppedPosts (n : LineNo) (k : Link) : List Post :=
  match k.inFlight with
  | some c => [lastCommand n c.kind c.seq .superseded]
  | none => []

/-- The posts of a link that goes OFF. -/
def offPosts (n : LineNo) (k : Link) : List Post := droppedPosts n k ++ [lineWord n 21 0x8000, lineWord n 20 (wordOf k.unanswered 0)]

theorem length_offPosts_le (n : LineNo) (k : Link) : (offPosts n k).length ≤ 3 := by
  unfold offPosts droppedPosts
  cases k.inFlight <;> simp

/-- A link of a disabled line goes OFF. -/
theorem State.imageNotice_disable (hon : s.config.enabled n = false) (hoff : k.state ≠ .off) :
    (s.setLink n k).imageNotice n =
      (s.setLink n k.disable,
        endActs n (offPosts n k) [] [.stateChange .off]) := by
  have hnot : ¬ (s.setLink n k).config.enabled n = true := Bool.eq_false_iff.mp hon
  have hlatch : latchedFlagsWord k.disable = 0x8000 := by
    have hflags : k.disable.latchedFlags = 0 := rfl
    rw [latchedFlagsWord_of_open rfl, hflags]
    decide
  unfold State.imageNotice
  dsimp only
  rw [State.link_setLink_same]
  refine ((if_neg hnot).trans (if_neg hoff)).trans ?_
  rw [hlatch, State.setLink_setLink]
  unfold offPosts droppedPosts
  cases k.inFlight with
  | none => exact rfl
  | some c => exact rfl

/-! ### The controller takes it when it comes last -/

/-- A link whose last event is its notice. -/
theorem State.arrive_notice {rest : List LinkArrival} (h : (s.link n).arrivals = rest ++ [⟨.notice, false⟩]) :
    (s.turned n rest).arrive n .notice = s := by
  have hlink : ({ s.link n with arrivals := rest ++ [⟨.notice, false⟩] } : Link) = s.link n := by
    rw [← h]
  have hset : s.setLink n (s.link n) = s := by
    unfold State.setLink State.link
    rw [Fin.getElem_fin, Vector.set_getElem_self]
  unfold State.arrive
  dsimp only
  rw [State.link_turned, State.setLink_turned, hlink, hset]

theorem State.flush_notice {rest : List LinkArrival} {t : State} {posts : List Post} {events : List LinkEvent}
    (hb : s.busy (.link n) = false) (harrivals : (s.link n).arrivals = rest ++ [⟨.notice, false⟩])
    (hrest : ∀ a ∈ rest, a.waited = false ∧ a.input.source ≠ .own)
    (htake : (s.turned n rest).imageNotice n = (t, endActs n posts [] events)) (hroom : t.room posts.length) (hown : t.noOwn n) :
    s.flush n = State.postAll { t with lines := told t n events } posts := by
  have hleft : (othersOf (endActs n posts [] events)).foldl State.perform t = { t with lines := told t n events } := by
    rw [foldl_endActs, List.append_nil]
  have hop : t.operate (.link n) (endActs n posts [] events) none = State.postAll { t with lines := told t n events } posts := by
    rw [State.operate_eq _ _ (by rwa [postsOf_endActs]), hleft, postsOf_endActs]
  have htaken := State.flush_of_last (s := s) (k := { s.link n with arrivals := rest }) (e := .notice) hb rfl
    (fun a ha => (hrest a ha).2) (fun a ha => (hrest a ha).1) htake hop (State.noOwn_postAll _ hown)
  have harrive : ((s.setLink n { s.link n with arrivals := rest }).arrive n .notice) = s := State.arrive_notice harrivals
  rwa [harrive] at htaken

/-- A notice that posts nothing and tells nothing. -/
theorem State.flush_notice_silent {rest : List LinkArrival} {t : State} (hb : s.busy (.link n) = false)
    (harrivals : (s.link n).arrivals = rest ++ [⟨.notice, false⟩])
    (hrest : ∀ a ∈ rest, a.waited = false ∧ a.input.source ≠ .own) (htake : (s.turned n rest).imageNotice n = (t, []))
    (hroom : t.room 0) (hown : t.noOwn n) : s.flush n = t := by
  have hflush := State.flush_notice (posts := []) (events := []) hb harrivals hrest htake hroom hown
  rwa [told_nil] at hflush

/-- What a link that goes OFF keeps of its events, when none before the notice is its own. -/
theorem Link.disable_arrivals {rest : List LinkArrival} (hrest : ∀ a ∈ rest, a.input.source ≠ .own) :
    (rest.filter fun a => a.input.source == .supervisor || a.input == .notice) =
      rest.filter fun a => a.input.source == .supervisor := by
  refine List.filter_congr fun a ha => ?_
  have hnotice : (a.input == .notice) = false := by
    rw [beq_eq_false_iff_ne]
    intro h
    exact hrest a ha (h ▸ rfl)
  rw [hnotice, Bool.or_false]

/-- Settles O50, by the four branches of the notice. -/
theorem aNoticeTurnsALinkOnOrOff : Obligations.ANoticeTurnsALinkOnOrOff := by
  unfold Obligations.ANoticeTurnsALinkOnOrOff
  refine ⟨fun c n k => ⟨fun h => ?_, fun i h => ?_⟩, fun n rest s hb harrivals hrest hroom => ?_⟩
  · have hword (k : Fin 12) : c.word k = 0 := by simp only [ConfigUnit.word, h]
    refine ⟨?_, hword k⟩
    unfold ConfigUnit.enabled
    rw [hword, BitVec.ofNat_eq_ofNat, BitVec.getLsbD_zero]
  · have hword (k : Fin 12) : c.word k = i[k] := by simp only [ConfigUnit.word, h]
    refine ⟨?_, hword k⟩
    unfold ConfigUnit.enabled
    rw [hword]
    exact rfl
  have hown : ∀ a ∈ rest, a.input.source ≠ .own := fun a ha => (hrest a ha).2
  refine ⟨fun hon hoff => ?_, fun hon hoff => ?_, fun hon hoff => ?_, fun hon hoff => ?_⟩
  · exact State.flush_notice hb harrivals hrest (State.imageNotice_enable hon hoff) (Nat.le_trans (Nat.le_add_right _ 2) hroom)
      (State.noOwn_of_link (State.link_of_links (s := s) rfl) hown)
  · exact State.flush_notice_silent hb harrivals hrest (State.imageNotice_rate hon hoff)
      (Nat.le_trans (Nat.le_add_right _ 3) hroom) (State.noOwn_of_link (State.link_of_links (s := s) rfl) hown)
  · exact State.flush_notice_silent hb harrivals hrest (State.imageNotice_stays_off hon hoff)
      (Nat.le_trans (Nat.le_add_right _ 3) hroom) (State.noOwn_of_link (State.link_of_links (s := s) rfl) hown)
  · have hflush := State.flush_notice hb harrivals hrest (State.imageNotice_disable hon hoff)
      (Nat.le_trans (Nat.add_le_add_left (length_offPosts_le n _) _) hroom)
      (State.noOwn_of_link (State.link_of_links (s := s) rfl) fun a ha => hown a (List.mem_of_mem_filter ha))
    rw [hflush, ← Link.disable_arrivals hown]
    exact rfl

end Sys2Proof.Machine
end
